-- ==== Sys2Proof/Word.lean ====
section
/-! DEFINITION. The word types of the block: bytes (the host data width, 00_scope.md R7), and the 24-bit words
of identifiers and FRAME rows. -/

namespace Sys2Proof

/-- One byte: every host access moves one (20_memory.md R66); bit 0 is the least significant (00_scope.md R9). -/
abbrev Byte := BitVec 8

/-- A 24-bit unsigned identifier, `dst` or `src` (30_encoding.md R81). -/
abbrev Ident := BitVec 24

/-- One row of FRAME as a 24-bit word with column `c` at bit `c` (10_state.md R34, decision D28). -/
abbrev Row := BitVec 24

end Sys2Proof
end

