-- ==== Sys2Proof/Config.lean ====
section
/-! DEFINITION. What an implementation fixes: the tables the spec supplies from general knowledge, as one
configuration structure that every unit takes as an argument (00_scope.md R7, decision D29), and the two OPEN
parameters, which have no value here. The default tables are `Sys2Proof.Machine.defaultTables`. -/

namespace Sys2Proof

/-- The general-knowledge tables of the block, constant in every run (00_scope.md R8, 10_state.md R51). A unit
takes them as an argument, so that a claim that rests on a table's values names that dependency (R7). -/
structure Tables where
  /-- `GOLAY_G`, the Golay generator polynomial (40_golay.md R101). The encoder is a lookup in `GOLAY_P` (R100); what
  ties the two is R103's "generated from rule R101", which `Tables.wf` checks. -/
  golayG : BitVec 12
  /-- `GOLAY_P[d]`, the 256-entry parity table (40_golay.md R103). -/
  golayP : Vector (BitVec 12) 256
  /-- `DATA_SLOTS[k]`, the matrix position of input bit `k` (41_bptc.md R121). -/
  bptcSlots : Vector (Fin 196) 96
  /-- Hamming(15,11,3): the data columns summed in parity column `11 + j` (41_bptc.md R124). -/
  hamRow : Vector (List (Fin 11)) 4
  /-- Hamming(13,9,3): the data rows summed in parity row `9 + j` (41_bptc.md R125). -/
  hamCol : Vector (List (Fin 9)) 4
  /-- The multiplier of `BPTC_ILV` (41_bptc.md R127, 00_scope.md R7). -/
  bptcIlv : Nat
  /-- The modulus of `BPTC_ILV` (41_bptc.md R127, 00_scope.md R7). -/
  bptcIlvMod : Nat
  /-- `GF_PRIM`, the primitive polynomial of GF(256) (42_rs129.md R140). -/
  gfPrim : BitVec 9
  /-- `RS_GEN`, the generator's coefficients from the constant term up (42_rs129.md R142). -/
  rsGen : Vector Byte 4
  /-- `TAB_A_W[k]`, the row of stream bit `k`, Family A (44_deinterleave.md R182). -/
  tabAW : Vector (Fin 4) 72
  /-- `TAB_A_X[k]`, the column of stream bit `k`, Family A (44_deinterleave.md R182). -/
  tabAX : Vector (Fin 24) 72
  /-- `TAB_B_W[k]`, the row of dibit `k`'s high bit, Family B (44_deinterleave.md R185). -/
  tabBW : Vector (Fin 4) 36
  /-- `TAB_B_X[k]`, the column of dibit `k`'s high bit, Family B (44_deinterleave.md R185). -/
  tabBX : Vector (Fin 24) 36
  /-- `TAB_B_Y[k]`, the row of dibit `k`'s low bit, Family B (44_deinterleave.md R185). -/
  tabBY : Vector (Fin 4) 36
  /-- `TAB_B_Z[k]`, the column of dibit `k`'s low bit, Family B (44_deinterleave.md R185). -/
  tabBZ : Vector (Fin 24) 36
  /-- `SD_MARKER[n]` for n = 1, 3, 5, 7, at index `(n - 1) / 2` (45_slowdata.md R201). -/
  sdMarker : Vector Byte 4
deriving DecidableEq, Repr

/-- `SYNC7_RESET`, the OPEN reset value of SYNCPAT (10_state.md R43, R54, decision D11). It has no body: the
spec names candidates and chooses none, so nothing can be proved of its value (log entry 1). -/
opaque Config.sync7Reset : Fin 7 → Byte

/-- `FDS_BASE`, the OPEN base of the register space in the host's own address map (20_memory.md R68). Nothing in
the block depends on it, and nothing in this model reads it (log entry 2). -/
opaque Config.fdsBase : Nat

end Sys2Proof
end

