-- ==== Sys2Proof/Syntax.lean ====
section
/-! DEFINITION. The commands of the block, one constructor per row of spec/opcode_table.json; the inputs the
outside world gives it, one host access or a reset (20_memory.md R61, 70_reset_and_hazards.md R260); and the
lines of a host program (30_encoding.md R86, R87). -/

namespace Sys2Proof

/-- DSRX-FDS command set 1 (30_encoding.md R82). No command has an operand field (R81). -/
inductive Instr where
  /-- 0x00 NOP (46_control.md R231). -/
  | nop
  /-- 0x01 GOLAY_ENC (40_golay.md R104). -/
  | golayEnc
  /-- 0x02 BPTC_ENC (41_bptc.md R129). -/
  | bptcEnc
  /-- 0x03 RS_PARITY (42_rs129.md R145). -/
  | rsParity
  /-- 0x04 LC_ENC (42_rs129.md R147). -/
  | lcEnc
  /-- 0x05 HDR_BUILD (43_header.md R161). -/
  | hdrBuild
  /-- 0x06 DEINT_A (44_deinterleave.md R183). -/
  | deintA
  /-- 0x07 DEINT_B (44_deinterleave.md R186). -/
  | deintB
  /-- 0x08 DMR_DEMUX (44_deinterleave.md R188). -/
  | dmrDemux
  /-- 0x09 SD_RESET (45_slowdata.md R211). -/
  | sdReset
  /-- 0x0A SD_FRAME (45_slowdata.md R210). -/
  | sdFrame
deriving DecidableEq, Repr

/-- What the outside world can do to the block, one at a time and each to completion (20_memory.md R70). -/
inductive Input where
  /-- The host's `MemRead(addr, 1)` (20_memory.md R61). -/
  | read (addr : Byte)
  /-- The host's `MemWrite(addr, 1, val)`; at address 0xFF it issues the command `val` (20_memory.md R61). -/
  | write (addr val : Byte)
  /-- The platform's reset event (70_reset_and_hazards.md R260). -/
  | reset
deriving DecidableEq, Repr

/-- One line of a host program: the forms of 30_encoding.md R86 and the pseudo-instructions of R87. -/
inductive HostLine where
  /-- `wr ADDR, VAL`. -/
  | wr (addr val : Byte)
  /-- `rd ADDR`. -/
  | rd (addr : Byte)
  /-- A bare mnemonic. -/
  | command (i : Instr)
  /-- `.word VAL`. -/
  | word (val : Byte)
  /-- `ldi OFF, b0, b1, ..., bk`. -/
  | ldi (off : Nat) (bytes : List Byte)
  /-- `ld24 OFF, V`. -/
  | ld24 (off : Nat) (v : Ident)
  /-- `setcfg V`. -/
  | setcfg (v : Byte)
  /-- `setsync s0, ..., s6`. -/
  | setsync (bytes : Vector Byte 7)
  /-- `sdframe SEQ, A0, A1, A2`. -/
  | sdframe (seq a0 a1 a2 : Byte)
  /-- `movob I, J, N`. -/
  | movob (i j n : Nat)
deriving DecidableEq, Repr

end Sys2Proof
end

