-- ==== Sys2Proof/Machine/State.lean ====
section
/-! DEFINITION. The state of the block (10_state.md R31), the state after reset (R54), and the closed lists of
faults and refusals. -/

namespace Sys2Proof.Machine

/-- The steps 1 to 8 of the slow-data assembler ("step counter (1..8)", 10_state.md R36). -/
inductive SdStep where
  | s1 | s2 | s3 | s4 | s5 | s6 | s7 | s8
deriving DecidableEq, Repr

/-- The nine control states of the assembler (45_slowdata.md R200, 10_state.md R50): one tagged variant that holds
the pair SD_ARMED, SD_STEP, so that no other combination can be written down. `Machine.sdArmed` and
`Machine.sdStep` read the two registers from it. -/
inductive SdCtl where
  /-- Disarmed: SD_ARMED = 0, SD_STEP = 0. -/
  | disarmed
  /-- Armed(n): SD_ARMED = 1, SD_STEP = n. -/
  | armed (n : SdStep)
deriving DecidableEq, Repr

/-- The complete state of the block (10_state.md R31), and two fields of the model's own, `pending` and `observed`,
which hold the host's side of the bus (20_memory.md R70). -/
structure State where
  /-- IBUF[0..32], the operand buffer (R32). -/
  ibuf : Vector Byte 33
  /-- OBUF[0..32], the result buffer (R33). -/
  obuf : Vector Byte 33
  /-- FRAME[0..3][0..23]: row `r` is a word with column `c` at bit `c` (R34). -/
  frame : Vector Row 4
  /-- SD_ARMED and SD_STEP (R35, R36). -/
  sdCtl : SdCtl
  /-- SD_BUF[0..19], the accumulation buffer (R37). -/
  sdBuf : Vector Byte 20
  /-- SD_TEXT[0..20], the emitted text with its terminator (R38). -/
  sdText : Vector Byte 21
  /-- SD_TVALID (R39). -/
  sdTvalid : Bool
  /-- CFG.DEMUX_NIB, CFG bit 0 (R41). CFG bits 7:2 have no storage (R40). -/
  demuxNib : Bool
  /-- CFG.SD_SKIP, CFG bit 1 (R42). -/
  sdSkip : Bool
  /-- SYNCPAT[0..6] (R43). -/
  syncpat : Vector Byte 7
  /-- STATUS = SD_EV[2:0] ‖ ERR ‖ LAST_OP[3:0] (R44). -/
  status : Byte
  /-- The model's own: the host accesses and resets still to come, in the host's program order (R30, R70). -/
  pending : List Input
  /-- The model's own: the values the host's reads have returned so far, oldest first (30_encoding.md R86). -/
  observed : List Byte
deriving DecidableEq, Repr

/-- Reasons a step stops with a fault. There are none: the one exception, IllegalCommand, has a next state
(60_exceptions.md R240), no other exists (R241), and a step never fails to complete (46_control.md R230). -/
inductive Fault where
deriving DecidableEq, Repr

/-- Reasons a step has no meaning in this model. -/
inductive Refusal where
  /-- Raised by `exec` for a command that has no meaning yet; no arm of it does so. Safe: the run stops. -/
  | notModelled (mnemonic : String)
deriving DecidableEq, Repr

/-- The state right after reset (10_state.md R54, 70_reset_and_hazards.md R260). SYNCPAT is the OPEN parameter
`SYNC7_RESET` (log entry 1); the model's own fields start empty (log entry 3). -/
def State.reset : State where
  ibuf := Vector.replicate 33 0x00
  obuf := Vector.replicate 33 0x00
  frame := Vector.replicate 4 0
  sdCtl := .disarmed
  sdBuf := Vector.replicate 20 0x00
  sdText := Vector.replicate 21 0x00
  sdTvalid := false
  demuxNib := false
  sdSkip := false
  syncpat := #v[Config.sync7Reset 0, Config.sync7Reset 1, Config.sync7Reset 2, Config.sync7Reset 3,
    Config.sync7Reset 4, Config.sync7Reset 5, Config.sync7Reset 6]
  status := 0x00
  pending := []
  observed := []

end Sys2Proof.Machine
end

