-- ==== Sys2Proof/Machine/Operands.lean ====
section
/-! DEFINITION. The operand forms: fixed positions of IBUF (30_encoding.md R81), big-endian identifiers (20_memory.md
R64), and the bit orders of 20_memory.md R65. -/

namespace Sys2Proof.Machine

/-- `dst = IBUF[0] ‖ IBUF[1] ‖ IBUF[2]` (30_encoding.md R81). -/
def operandDst (s : State) : Ident := s.ibuf[0] ++ s.ibuf[1] ++ s.ibuf[2]

/-- `src = IBUF[3] ‖ IBUF[4] ‖ IBUF[5]` (30_encoding.md R81). -/
def operandSrc (s : State) : Ident := s.ibuf[3] ++ s.ibuf[4] ++ s.ibuf[5]

/-- The slot-type byte `st = IBUF[6]` of HDR_BUILD (43_header.md R161). -/
def operandSlotType (s : State) : Byte := s.ibuf[6]

/-- `IBUF[0..n-1]`, the first `n` bytes of IBUF. -/
def operandBytes (s : State) (n : Nat) (h : n ≤ 33) : Vector Byte n :=
  Vector.ofFn fun i => s.ibuf[i.val]

/-- MSB-first, byte-major: `s[8*i + j] = B[i][7-j]` (00_scope.md R9); false past the end. -/
def msbStream {n : Nat} (b : Vector Byte n) (k : Nat) : Bool := (b.getD (k / 8) 0).getLsbD (7 - k % 8)

/-- LSB-first, byte-major: `s[8*i + j] = B[i][j]` (00_scope.md R9); false past the end. -/
def lsbStream {n : Nat} (b : Vector Byte n) (k : Nat) : Bool := (b.getD (k / 8) 0).getLsbD (k % 8)

/-- The high bit of dibit `k`, `B[k div 4][7 - 2(k mod 4)]` (20_memory.md R65). -/
def dibitHigh {n : Nat} (b : Vector Byte n) (k : Nat) : Bool := (b.getD (k / 4) 0).getLsbD (7 - 2 * (k % 4))

/-- The low bit of dibit `k`, `B[k div 4][6 - 2(k mod 4)]` (20_memory.md R65). -/
def dibitLow {n : Nat} (b : Vector Byte n) (k : Nat) : Bool := (b.getD (k / 4) 0).getLsbD (6 - 2 * (k % 4))

/-- The frame counter `seq = IBUF[0]` of SD_FRAME, all eight bits of it (45_slowdata.md R202). -/
def operandSeq (s : State) : Byte := s.ibuf[0]

/-- The auxiliary bytes `a[0..2] = IBUF[1..3]` of SD_FRAME (45_slowdata.md R202). -/
def operandAux (s : State) : Vector Byte 3 := #v[s.ibuf[1], s.ibuf[2], s.ibuf[3]]

end Sys2Proof.Machine
end

