-- ==== Sys2Proof/Decode.lean ====
section
/-! DEFINITION. Decode (30_encoding.md R84), total on all 256 command words and rejecting an illegal word by name,
and the encoder of the same table (R82). -/

namespace Sys2Proof

/-- Why a command word is illegal (30_encoding.md R83). -/
inductive DecodeError where
  /-- RSV = `w[7:4]` is not zero: words 0x10-0xFF. -/
  | reservedBits (w : Byte)
  /-- RSV = 0 and OP is one of 0xB-0xF: words 0x0B-0x0F. -/
  | unassignedOp (w : Byte)
deriving DecidableEq, Repr

/-- RSV, bits 7:4 of a command word (30_encoding.md R80). -/
def rsvField (w : Byte) : BitVec 4 := w.extractLsb' 4 4

/-- OP, bits 3:0 of a command word (30_encoding.md R80). -/
def opField (w : Byte) : BitVec 4 := w.extractLsb' 0 4

/-- The decoder of 30_encoding.md R84. -/
def decode (w : Byte) : Except DecodeError Instr :=
  if rsvField w ≠ 0 then .error (.reservedBits w)
  else
    match (opField w).toNat with
    | 0x0 => .ok .nop
    | 0x1 => .ok .golayEnc
    | 0x2 => .ok .bptcEnc
    | 0x3 => .ok .rsParity
    | 0x4 => .ok .lcEnc
    | 0x5 => .ok .hdrBuild
    | 0x6 => .ok .deintA
    | 0x7 => .ok .deintB
    | 0x8 => .ok .dmrDemux
    | 0x9 => .ok .sdReset
    | 0xA => .ok .sdFrame
    | _ => .error (.unassignedOp w)

/-- The command word of each command: RSV = 0 above the OP of the opcode map (30_encoding.md R80, R82). -/
def encode : Instr → Byte
  | .nop => 0x00
  | .golayEnc => 0x01
  | .bptcEnc => 0x02
  | .rsParity => 0x03
  | .lcEnc => 0x04
  | .hdrBuild => 0x05
  | .deintA => 0x06
  | .deintB => 0x07
  | .dmrDemux => 0x08
  | .sdReset => 0x09
  | .sdFrame => 0x0A

/-- The command that the decoder reads from an `nbits`-bit word `w` of the opcode table: every command is exactly
one byte (30_encoding.md R80), so any other length, and any `w` that does not fit, is no command. -/
def decodeTableWord (nbits w : Nat) : Option Instr :=
  if nbits = 8 ∧ w < 256 then
    match decode (BitVec.ofNat 8 w) with
    | .ok i => some i
    | .error _ => none
  else none

end Sys2Proof
end

