-- ==== Sys2Proof/Machine/Flags.lean ====
section
/-! DEFINITION. STATUS, the block's only flag register (10_state.md R44-R47): the events of SD_EV, the word a
command writes, and the three fields read back from it. -/

namespace Sys2Proof.Machine

/-- What the most recent command did to the slow-data assembler (10_state.md R47). -/
inductive SdEvent where
  | none | sync | step | emit | markerFail | seqIgnore | seqDisarm | idle
deriving DecidableEq, Repr

/-- The code of an event in SD_EV (10_state.md R47). -/
def SdEvent.code : SdEvent → BitVec 3
  | .none => 0
  | .sync => 1
  | .step => 2
  | .emit => 3
  | .markerFail => 4
  | .seqIgnore => 5
  | .seqDisarm => 6
  | .idle => 7

/-- STATUS = SD_EV[2:0] ‖ ERR ‖ LAST_OP[3:0] (10_state.md R44). -/
def statusWord (ev : SdEvent) (err : Bool) (op : BitVec 4) : Byte :=
  ev.code ++ BitVec.ofBool err ++ op

/-- STATUS.LAST_OP, bits 3:0 (10_state.md R45). -/
def statusLastOp (st : Byte) : BitVec 4 := st.extractLsb' 0 4

/-- STATUS.ERR, bit 4 (10_state.md R46). -/
def statusErr (st : Byte) : Bool := st.getLsbD 4

/-- STATUS.SD_EV, bits 7:5 (10_state.md R47). -/
def statusSdEv (st : Byte) : BitVec 3 := st.extractLsb' 5 3

end Sys2Proof.Machine
end

