-- ==== Sys2Proof/Machine/Ops.lean ====
section
/-! DEFINITION. The named operations every command goes through: the state updates, byte buffers, bit arrays, FRAME
cells, the register space (20_memory.md R61), the end of a legal command, and taking IllegalCommand
(60_exceptions.md R240). -/

namespace Sys2Proof.Machine

/-! ### State updates, one per field -/

def State.withIbuf (s : State) (v : Vector Byte 33) : State := { s with ibuf := v }
def State.withObuf (s : State) (v : Vector Byte 33) : State := { s with obuf := v }
def State.withFrame (s : State) (v : Vector Row 4) : State := { s with frame := v }
def State.withSdCtl (s : State) (v : SdCtl) : State := { s with sdCtl := v }
def State.withSdBuf (s : State) (v : Vector Byte 20) : State := { s with sdBuf := v }
def State.withSdText (s : State) (v : Vector Byte 21) : State := { s with sdText := v }
def State.withSdTvalid (s : State) (v : Bool) : State := { s with sdTvalid := v }
def State.withDemuxNib (s : State) (v : Bool) : State := { s with demuxNib := v }
def State.withSdSkip (s : State) (v : Bool) : State := { s with sdSkip := v }
def State.withSyncpat (s : State) (v : Vector Byte 7) : State := { s with syncpat := v }
def State.withStatus (s : State) (v : Byte) : State := { s with status := v }
def State.withPending (s : State) (v : List Input) : State := { s with pending := v }
def State.withObserved (s : State) (v : List Byte) : State := { s with observed := v }

/-! ### Byte buffers -/

/-- `buf` with `bytes` written from index `base` on; what would fall past the end is dropped. -/
def writeBytes {n : Nat} (buf : Vector Byte n) (base : Nat) (bytes : List Byte) : Vector Byte n :=
  Vector.ofFn fun i => if base ≤ i.val ∧ i.val < base + bytes.length then bytes.getD (i.val - base) 0 else buf[i.val]

/-- A buffer of zeros: "set to all 0x00". -/
def zeroBytes (n : Nat) : Vector Byte n := Vector.replicate n 0x00

/-- OBUF after a command with the byte results `bytes`: all 33 bytes are first cleared (10_state.md R33). -/
def resultBytes (bytes : List Byte) : Vector Byte 33 := writeBytes (zeroBytes 33) 0 bytes

/-! ### Bit arrays -/

/-- The number whose bits below `n` are `f 0, ..., f (n - 1)`, bit 0 the least significant. -/
def natOfBits (f : Nat → Bool) : Nat → Nat
  | 0 => 0
  | n + 1 => natOfBits f n + (if f n then 2 ^ n else 0)

/-- The bit array of width `w` whose bit `i` is `f i` (00_scope.md R9). -/
def ofBits (w : Nat) (f : Nat → Bool) : BitVec w := BitVec.ofNat w (natOfBits f w)

/-- `m` with bit `i` replaced by `b`. -/
def setBit {w : Nat} (m : BitVec w) (i : Nat) (b : Bool) : BitVec w :=
  if b then m ||| BitVec.twoPow w i else m &&& ~~~ BitVec.twoPow w i

/-- The assignments `m[a] <- b` of a list, in order: of two for one position the later wins. -/
def scatterBits {w : Nat} (m : BitVec w) (writes : List (Nat × Bool)) : BitVec w :=
  writes.foldl (fun acc p => setBit acc p.1 p.2) m

/-- The exclusive-or of a list of bits. -/
def xorBits (bits : List Bool) : Bool := bits.foldr Bool.xor false

/-! ### FRAME cells (10_state.md R34) -/

/-- `FRAME[r][c]`. -/
def cell (f : Vector Row 4) (r : Fin 4) (c : Fin 24) : Bool := f[r.val].getLsbD c.val

/-- FRAME with `FRAME[r][c]` replaced by `b`. -/
def setCell (f : Vector Row 4) (r : Fin 4) (c : Fin 24) (b : Bool) : Vector Row 4 :=
  f.set r.val (setBit f[r.val] c.val b)

/-- All 96 cells 0. -/
def clearFrame : Vector Row 4 := Vector.replicate 4 0

/-- The assignments `FRAME[r][c] <- b` of a list, in order: of two for one cell the later wins, as
44_deinterleave.md R181 says of a table that repeats a cell. -/
def scatterCells (f : Vector Row 4) (writes : List ((Fin 4 × Fin 24) × Bool)) : Vector Row 4 :=
  writes.foldl (fun acc p => setCell acc p.1.1 p.1.2 p.2) f

/-! ### The assembler's registers -/

/-- The step number, 1 to 8 (10_state.md R36). -/
def SdStep.num : SdStep → BitVec 4
  | .s1 => 1
  | .s2 => 2
  | .s3 => 3
  | .s4 => 4
  | .s5 => 5
  | .s6 => 6
  | .s7 => 7
  | .s8 => 8

/-- SD_ARMED (10_state.md R35). -/
def sdArmed (s : State) : Bool :=
  match s.sdCtl with
  | .disarmed => false
  | .armed _ => true

/-- SD_STEP: the step the assembler expects next, 0 while disarmed (10_state.md R36). -/
def sdStep (s : State) : BitVec 4 :=
  match s.sdCtl with
  | .disarmed => 0
  | .armed n => n.num

/-! ### The register space (20_memory.md R60-R63) -/

/-- What a host address names (10_state.md R31). -/
inductive Region where
  | ibuf (i : Fin 33)
  | obuf (i : Fin 33)
  | frameByte (r : Fin 4) (b : Fin 3)
  | sdState
  | sdBuf (i : Fin 20)
  | sdText (i : Fin 21)
  | cfg
  | syncpat (i : Fin 7)
  | status
  | cmd
  | unmapped
deriving DecidableEq, Repr

/-- `region` of 20_memory.md R61 on an address as a number: everything outside the table of 10_state.md R31 is
unmapped (20_memory.md R63). -/
def regionAt (a : Nat) : Region :=
  if h : a ≤ 0x20 then .ibuf ⟨a, by omega⟩
  else if h : 0x40 ≤ a ∧ a ≤ 0x60 then .obuf ⟨a - 0x40, by omega⟩
  else if h : 0x80 ≤ a ∧ a ≤ 0x8B then .frameByte ⟨(a - 0x80) / 3, by omega⟩ ⟨(a - 0x80) % 3, by omega⟩
  else if a = 0x90 then .sdState
  else if h : 0xA0 ≤ a ∧ a ≤ 0xB3 then .sdBuf ⟨a - 0xA0, by omega⟩
  else if h : 0xC0 ≤ a ∧ a ≤ 0xD4 then .sdText ⟨a - 0xC0, by omega⟩
  else if a = 0xE0 then .cfg
  else if h : 0xE8 ≤ a ∧ a ≤ 0xEE then .syncpat ⟨a - 0xE8, by omega⟩
  else if a = 0xF0 then .status
  else if a = 0xFF then .cmd
  else .unmapped

/-- The address decoder of 20_memory.md R61. -/
def region (addr : Byte) : Region := regionAt addr.toNat

/-- SD_STATE = 0b00 ‖ SD_TVALID ‖ SD_STEP[3:0] ‖ SD_ARMED (10_state.md R49). -/
def sdStateView (s : State) : Byte :=
  0#2 ++ BitVec.ofBool s.sdTvalid ++ sdStep s ++ BitVec.ofBool (sdArmed s)

/-- CFG as the host reads it: 0b000000 ‖ SD_SKIP ‖ DEMUX_NIB (10_state.md R40). -/
def cfgView (s : State) : Byte := 0#6 ++ BitVec.ofBool s.sdSkip ++ BitVec.ofBool s.demuxNib

/-- The byte the host reads from a location (20_memory.md R61): CMD and unmapped locations read 0x00. -/
def readRegion (r : Region) (s : State) : Byte :=
  match r with
  | .ibuf i => s.ibuf[i.val]
  | .obuf i => s.obuf[i.val]
  | .frameByte r b => s.frame[r.val].extractLsb' (8 * b.val) 8
  | .sdState => sdStateView s
  | .sdBuf i => s.sdBuf[i.val]
  | .sdText i => s.sdText[i.val]
  | .cfg => cfgView s
  | .syncpat i => s.syncpat[i.val]
  | .status => s.status
  | .cmd => 0x00
  | .unmapped => 0x00

/-- `MemRead(addr, 1)` (20_memory.md R61). -/
def memRead (addr : Byte) (s : State) : Byte := readRegion (region addr) s

/-- A host write that issues no command (20_memory.md R61): IBUF, CFG and SYNCPAT take the byte, every other
location ignores it (R63). CMD has no storage (10_state.md R48); what a write to it does is
`Machine.hostWrite`'s. -/
def writeRegion (r : Region) (v : Byte) (s : State) : State :=
  match r with
  | .ibuf i => s.withIbuf (s.ibuf.set i.val v)
  | .cfg => (s.withDemuxNib (v.getLsbD 0)).withSdSkip (v.getLsbD 1)
  | .syncpat i => s.withSyncpat (s.syncpat.set i.val v)
  | .obuf _ | .frameByte _ _ | .sdState | .sdBuf _ | .sdText _ | .status | .cmd | .unmapped => s

/-! ### The end of a command, and taking the exception -/

/-- The STATUS write every legal command ends with: ERR = 0 and LAST_OP the command's OP (10_state.md R44-R47).
Being rewritten by every legal command is also the whole of leaving an exception (60_exceptions.md R245). -/
def finish (i : Instr) (ev : SdEvent) (s : State) : State := s.withStatus (statusWord ev false (opField (encode i)))

/-- Taking IllegalCommand (60_exceptions.md R240, R244): STATUS records `w[3:0]` with ERR = 1 and SD_EV = NONE.
Nothing is saved, no mode changes, no control is transferred, nothing else changes. -/
def raiseIllegalCommand (w : Byte) (s : State) : State := s.withStatus (statusWord .none true (opField w))

end Sys2Proof.Machine
end

