-- ==== Sys2Proof/Machine/Tables.lean ====
section
/-! DEFINITION. The default tables: every value the spec supplies from general knowledge (00_scope.md R7,
93_implementation_defined.md Part 2), and `defaultTables`, the configuration this model runs with (log entry 4). -/

namespace Sys2Proof.Machine

/-- A vector from a list of a known length. -/
def vectorOf {α : Type} {n : Nat} (l : List α) (h : l.length = n) : Vector α n := ⟨⟨l⟩, h⟩

/-- The table of 40_golay.md R103, row `0xH_` by row. -/
def golayList : List (BitVec 12) :=
  [0x000, 0x8EB, 0x93E, 0x1D5, 0xA97, 0x27C, 0x3A9, 0xB42, 0xDC6, 0x52D, 0x4F8, 0xC13, 0x751, 0xFBA, 0xE6F, 0x684]
  ++ [0x367, 0xB8C, 0xA59, 0x2B2, 0x9F0, 0x11B, 0x0CE, 0x825, 0xEA1, 0x64A, 0x79F, 0xF74, 0x436, 0xCDD, 0xD08, 0x5E3]
  ++ [0x6CD, 0xE26, 0xFF3, 0x718, 0xC5A, 0x4B1, 0x564, 0xD8F, 0xB0B, 0x3E0, 0x235, 0xADE, 0x19C, 0x977, 0x8A2, 0x049]
  ++ [0x5AA, 0xD41, 0xC94, 0x47F, 0xF3D, 0x7D6, 0x603, 0xEE8, 0x86C, 0x087, 0x152, 0x9B9, 0x2FB, 0xA10, 0xBC5, 0x32E]
  ++ [0xD99, 0x572, 0x4A7, 0xC4C, 0x70E, 0xFE5, 0xE30, 0x6DB, 0x05F, 0x8B4, 0x961, 0x18A, 0xAC8, 0x223, 0x3F6, 0xB1D]
  ++ [0xEFE, 0x615, 0x7C0, 0xF2B, 0x469, 0xC82, 0xD57, 0x5BC, 0x338, 0xBD3, 0xA06, 0x2ED, 0x9AF, 0x144, 0x091, 0x87A]
  ++ [0xB54, 0x3BF, 0x26A, 0xA81, 0x1C3, 0x928, 0x8FD, 0x016, 0x692, 0xE79, 0xFAC, 0x747, 0xC05, 0x4EE, 0x53B, 0xDD0]
  ++ [0x833, 0x0D8, 0x10D, 0x9E6, 0x2A4, 0xA4F, 0xB9A, 0x371, 0x5F5, 0xD1E, 0xCCB, 0x420, 0xF62, 0x789, 0x65C, 0xEB7]
  ++ [0x3DA, 0xB31, 0xAE4, 0x20F, 0x94D, 0x1A6, 0x073, 0x898, 0xE1C, 0x6F7, 0x722, 0xFC9, 0x48B, 0xC60, 0xDB5, 0x55E]
  ++ [0x0BD, 0x856, 0x983, 0x168, 0xA2A, 0x2C1, 0x314, 0xBFF, 0xD7B, 0x590, 0x445, 0xCAE, 0x7EC, 0xF07, 0xED2, 0x639]
  ++ [0x517, 0xDFC, 0xC29, 0x4C2, 0xF80, 0x76B, 0x6BE, 0xE55, 0x8D1, 0x03A, 0x1EF, 0x904, 0x246, 0xAAD, 0xB78, 0x393]
  ++ [0x670, 0xE9B, 0xF4E, 0x7A5, 0xCE7, 0x40C, 0x5D9, 0xD32, 0xBB6, 0x35D, 0x288, 0xA63, 0x121, 0x9CA, 0x81F, 0x0F4]
  ++ [0xE43, 0x6A8, 0x77D, 0xF96, 0x4D4, 0xC3F, 0xDEA, 0x501, 0x385, 0xB6E, 0xABB, 0x250, 0x912, 0x1F9, 0x02C, 0x8C7]
  ++ [0xD24, 0x5CF, 0x41A, 0xCF1, 0x7B3, 0xF58, 0xE8D, 0x666, 0x0E2, 0x809, 0x9DC, 0x137, 0xA75, 0x29E, 0x34B, 0xBA0]
  ++ [0x88E, 0x065, 0x1B0, 0x95B, 0x219, 0xAF2, 0xB27, 0x3CC, 0x548, 0xDA3, 0xC76, 0x49D, 0xFDF, 0x734, 0x6E1, 0xE0A]
  ++ [0xBE9, 0x302, 0x2D7, 0xA3C, 0x17E, 0x995, 0x840, 0x0AB, 0x62F, 0xEC4, 0xF11, 0x7FA, 0xCB8, 0x453, 0x586, 0xD6D]

/-- DATA_SLOTS: row 0, columns 3..10, and rows 1..8, columns 0..10 (41_bptc.md R121). -/
def bptcSlotList : List (Fin 196) :=
  [4, 5, 6, 7, 8, 9, 10, 11]
  ++ [16, 17, 18, 19, 20, 21, 22, 23, 24, 25, 26]
  ++ [31, 32, 33, 34, 35, 36, 37, 38, 39, 40, 41]
  ++ [46, 47, 48, 49, 50, 51, 52, 53, 54, 55, 56]
  ++ [61, 62, 63, 64, 65, 66, 67, 68, 69, 70, 71]
  ++ [76, 77, 78, 79, 80, 81, 82, 83, 84, 85, 86]
  ++ [91, 92, 93, 94, 95, 96, 97, 98, 99, 100, 101]
  ++ [106, 107, 108, 109, 110, 111, 112, 113, 114, 115, 116]
  ++ [121, 122, 123, 124, 125, 126, 127, 128, 129, 130, 131]

/-- `TAB_A_W` (44_deinterleave.md R182), twelve entries a row. -/
def tabAWList : List (Fin 4) :=
  [0, 0, 3, 2, 1, 1, 0, 0, 1, 1, 0, 0]
  ++ [3, 2, 1, 1, 3, 2, 1, 1, 0, 0, 3, 2]
  ++ [0, 0, 3, 2, 1, 1, 0, 0, 1, 1, 0, 0]
  ++ [3, 2, 1, 1, 3, 2, 1, 1, 0, 0, 3, 2]
  ++ [0, 0, 3, 2, 1, 1, 0, 0, 1, 1, 0, 0]
  ++ [3, 2, 1, 1, 3, 3, 2, 1, 0, 0, 3, 3]

/-- `TAB_A_X` (44_deinterleave.md R182), twelve entries a row. -/
def tabAXList : List (Fin 24) :=
  [10, 22, 11, 9, 10, 22, 11, 23, 8, 20, 9, 21]
  ++ [10, 8, 9, 21, 8, 6, 7, 19, 8, 20, 9, 7]
  ++ [6, 18, 7, 5, 6, 18, 7, 19, 4, 16, 5, 17]
  ++ [6, 4, 5, 17, 4, 2, 3, 15, 4, 16, 5, 3]
  ++ [2, 14, 3, 1, 2, 14, 3, 15, 0, 12, 1, 13]
  ++ [2, 0, 1, 13, 0, 12, 10, 11, 0, 12, 1, 13]

/-- `TAB_B_W` (44_deinterleave.md R185), twelve entries a row. -/
def tabBWList : List (Fin 4) :=
  [0, 1, 0, 1, 0, 1, 0, 1, 0, 1, 0, 1]
  ++ [0, 1, 0, 1, 0, 1, 0, 1, 0, 1, 0, 2]
  ++ [0, 2, 0, 2, 0, 2, 0, 2, 0, 2, 0, 2]

/-- `TAB_B_X` (44_deinterleave.md R185), twelve entries a row. -/
def tabBXList : List (Fin 24) :=
  [23, 10, 22, 9, 21, 8, 20, 7, 19, 6, 18, 5]
  ++ [17, 4, 16, 3, 15, 2, 14, 1, 13, 0, 12, 10]
  ++ [11, 9, 10, 8, 9, 7, 8, 6, 7, 5, 6, 4]

/-- `TAB_B_Y` (44_deinterleave.md R185), twelve entries a row. -/
def tabBYList : List (Fin 4) :=
  [0, 2, 0, 2, 0, 2, 0, 2, 0, 3, 0, 3]
  ++ [1, 3, 1, 3, 1, 3, 1, 3, 1, 3, 1, 3]
  ++ [1, 3, 1, 3, 1, 3, 1, 3, 1, 3, 1, 3]

/-- `TAB_B_Z` (44_deinterleave.md R185), twelve entries a row. -/
def tabBZList : List (Fin 24) :=
  [5, 3, 4, 2, 3, 1, 2, 0, 1, 13, 0, 12]
  ++ [22, 11, 21, 10, 20, 9, 19, 8, 18, 7, 17, 6]
  ++ [16, 5, 15, 4, 14, 3, 13, 2, 12, 1, 11, 0]

/-- The spec's default for every general-knowledge table (00_scope.md R7). -/
def defaultTables : Tables where
  golayG := 0xC75
  golayP := vectorOf golayList (by decide +kernel)
  bptcSlots := vectorOf bptcSlotList (by rfl)
  hamRow := #v[[0, 1, 2, 3, 5, 7, 8], [1, 2, 3, 4, 6, 8, 9], [2, 3, 4, 5, 7, 9, 10], [0, 1, 2, 4, 6, 7, 10]]
  hamCol := #v[[0, 1, 3, 5, 6], [0, 1, 2, 4, 6, 7], [0, 1, 2, 3, 5, 7, 8], [0, 2, 4, 5, 8]]
  bptcIlv := 181
  bptcIlvMod := 196
  gfPrim := 0x11D
  rsGen := #v[64, 56, 14, 1]
  tabAW := vectorOf tabAWList (by rfl)
  tabAX := vectorOf tabAXList (by rfl)
  tabBW := vectorOf tabBWList (by rfl)
  tabBX := vectorOf tabBXList (by rfl)
  tabBY := vectorOf tabBYList (by rfl)
  tabBZ := vectorOf tabBZList (by rfl)
  sdMarker := #v[0x40, 0x41, 0x42, 0x43]

end Sys2Proof.Machine
end

