-- ==== Sys2Proof/Machine/Bptc.lean ====
section
/-! DEFINITION. The BPTC(196,96) encoder and interleaver (41_bptc.md): the 13 × 15 matrix with its row and column
codes, the interleave, the carrier packing, and BPTC_ENC. -/

namespace Sys2Proof.Machine

/-- The matrix position of row `r`, column `c`: `1 + 15*r + c` (41_bptc.md R120). -/
def matrixPos (r c : Nat) : Nat := 1 + 15 * r + c

/-- The data placement (41_bptc.md R121, R122): every position starts at 0, and input bit `k` (MSB-first, byte-major)
goes to `DATA_SLOTS[k]`. -/
def bptcPlace (T : Tables) (block : Vector Byte 12) : BitVec 196 :=
  scatterBits 0 ((List.finRange 96).map fun k => ((T.bptcSlots[k.val]).val, msbStream block k.val))

/-- The row-parity bit of row `r` in column `11 + j`: the Hamming(15,11,3) equation of `h[11 + j]` (41_bptc.md R124). -/
def rowParity (T : Tables) (m : BitVec 196) (r : Nat) (j : Fin 4) : Bool :=
  xorBits ((T.hamRow[j.val]).map fun c => m.getLsbD (matrixPos r c.val))

/-- The column-parity bit of column `c` in row `9 + j`: the Hamming(13,9,3) equation of `v[9 + j]` (41_bptc.md R125). -/
def colParity (T : Tables) (m : BitVec 196) (c : Nat) (j : Fin 4) : Bool :=
  xorBits ((T.hamCol[j.val]).map fun r => m.getLsbD (matrixPos r.val c))

/-- Rows 0 to 8 encoded: columns 11-14 of each receive its parity, every other position stays (41_bptc.md R123). -/
def encodeRows (T : Tables) (m : BitVec 196) : BitVec 196 :=
  ofBits 196 fun a =>
    if 1 ≤ a ∧ (a - 1) / 15 ≤ 8 ∧ 11 ≤ (a - 1) % 15 then
      rowParity T m ((a - 1) / 15) ⟨((a - 1) % 15 - 11) % 4, Nat.mod_lt _ (by decide)⟩
    else m.getLsbD a

/-- Columns 0 to 14 encoded: rows 9-12 of each receive its parity, every other position stays (41_bptc.md R126). -/
def encodeCols (T : Tables) (m : BitVec 196) : BitVec 196 :=
  ofBits 196 fun a =>
    if 1 ≤ a ∧ 9 ≤ (a - 1) / 15 then
      colParity T m ((a - 1) % 15) ⟨((a - 1) / 15 - 9) % 4, Nat.mod_lt _ (by decide)⟩
    else m.getLsbD a

/-- The encoded matrix `M[0..195]`: data, then all row parity, then column parity (41_bptc.md R121 to R126). -/
def bptcMatrix (T : Tables) (block : Vector Byte 12) : BitVec 196 :=
  encodeCols T (encodeRows T (bptcPlace T block))

/-- The interleave `T[(a * 181) mod 196] <- M[a]` for `a` in 0..195, multiplier and modulus being `BPTC_ILV`
(41_bptc.md R127). A target outside 0..195, which no well-formed configuration has, is dropped. -/
def interleave (T : Tables) (m : BitVec 196) : BitVec 196 :=
  scatterBits 0 ((List.range 196).map fun a => (a * T.bptcIlv % T.bptcIlvMod, m.getLsbD a))

/-- Carrier bit `n`, counted MSB-first from 0: `T[0..97]` occupy 0-97 and `T[98..195]` occupy 166-263, and the BPTC
writes no other carrier bit (41_bptc.md R128). -/
def carrierBit (t : BitVec 196) (n : Nat) : Bool :=
  if n < 98 then t.getLsbD n else if n < 166 then false else t.getLsbD (n - 68)

/-- The 33-byte carrier `K[0..32]`: bit `7 - j` of byte `i` is carrier bit `8*i + j` (41_bptc.md R128). -/
def packCarrier (t : BitVec 196) : Vector Byte 33 :=
  Vector.ofFn fun i => ofBits 8 fun j => carrierBit t (8 * i.val + (7 - j))

/-- BPTC of a 12-byte block: encode, interleave, pack (41_bptc.md R121 to R128). -/
def bptc (T : Tables) (block : Vector Byte 12) : Vector Byte 33 :=
  packCarrier (interleave T (bptcMatrix T block))

/-- BPTC_ENC with the tables `T` (41_bptc.md R129). -/
def bptcEncWith (T : Tables) (s : State) : Host.Outcome State Fault Refusal :=
  .next (finish .bptcEnc .none (s.withObuf (resultBytes (bptc T (operandBytes s 12 (by decide))).toList)))

/-- BPTC_ENC with the default tables. -/
def execBptcEnc (s : State) : Host.Outcome State Fault Refusal := bptcEncWith defaultTables s

end Sys2Proof.Machine
end

