-- ==== Sys2Proof/Machine/Control.lean ====
section
/-! DEFINITION. NOP (46_control.md R231). -/

namespace Sys2Proof.Machine

/-- NOP: nothing but the STATUS write (46_control.md R231). -/
def execNop (s : State) : Host.Outcome State Fault Refusal := .next (finish .nop .none s)

end Sys2Proof.Machine
end

