-- ==== Sys2Proof/Machine/Deinterleave.lean ====
section
/-! DEFINITION. The voice-payload deinterleavers and the DMR payload demultiplexer (44_deinterleave.md). -/

namespace Sys2Proof.Machine

/-- The 72 assignments of Family A in order: `FRAME[W[k]][X[k]] <- stream bit k`, LSB-first (44_deinterleave.md R181). -/
def writesA (T : Tables) (unit : Vector Byte 9) : List ((Fin 4 × Fin 24) × Bool) :=
  (List.finRange 72).map fun k => ((T.tabAW[k.val], T.tabAX[k.val]), lsbStream unit k.val)

/-- The 36 steps of Family B in order, two assignments each: the high bit of dibit `k` to `(W[k], X[k])` and the low
bit to `(Y[k], Z[k])` (44_deinterleave.md R184). -/
def writesB (T : Tables) (unit : Vector Byte 9) : List ((Fin 4 × Fin 24) × Bool) :=
  (List.finRange 36).flatMap fun k =>
    [((T.tabBW[k.val], T.tabBX[k.val]), dibitHigh unit k.val),
      ((T.tabBY[k.val], T.tabBZ[k.val]), dibitLow unit k.val)]

/-- Family A of one 9-byte unit: all 96 cells cleared, then the 72 writes (44_deinterleave.md R183). -/
def deinterleaveA (T : Tables) (unit : Vector Byte 9) : Vector Row 4 := scatterCells clearFrame (writesA T unit)

/-- Family B of one 9-byte unit: all 96 cells cleared, then the 72 writes (44_deinterleave.md R186). -/
def deinterleaveB (T : Tables) (unit : Vector Byte 9) : Vector Row 4 := scatterCells clearFrame (writesB T unit)

/-- DEINT_A with the tables `T` (44_deinterleave.md R183). -/
def deintAWith (T : Tables) (s : State) : Host.Outcome State Fault Refusal :=
  .next (finish .deintA .none (s.withFrame (deinterleaveA T (operandBytes s 9 (by decide)))))

/-- DEINT_A with the default tables. -/
def execDeintA (s : State) : Host.Outcome State Fault Refusal := deintAWith defaultTables s

/-- DEINT_B with the tables `T` (44_deinterleave.md R186). -/
def deintBWith (T : Tables) (s : State) : Host.Outcome State Fault Refusal :=
  .next (finish .deintB .none (s.withFrame (deinterleaveB T (operandBytes s 9 (by decide)))))

/-- DEINT_B with the default tables. -/
def execDeintB (s : State) : Host.Outcome State Fault Refusal := deintBWith defaultTables s

/-- The nibble that replaces the low nibble of output byte 13: bits 7:4 of byte 19, or bits 3:0 when CFG.DEMUX_NIB
is 1 (10_state.md R41, 44_deinterleave.md R188). -/
def demuxNibble (nib : Bool) (b19 : Byte) : BitVec 4 :=
  if nib then b19.extractLsb' 0 4 else b19.extractLsb' 4 4

/-- The 27 bytes of a demultiplexed payload: input bytes 0-13, the low nibble of byte 13 replaced, then input bytes
20-32 (44_deinterleave.md R187). -/
def demuxBytes (nib : Bool) (p : Vector Byte 33) : Vector Byte 27 :=
  Vector.ofFn fun i =>
    if i.val < 13 then p[i.val]
    else if i.val = 13 then p[13].extractLsb' 4 4 ++ demuxNibble nib p[19]
    else p[i.val + 6]

/-- DMR_DEMUX (44_deinterleave.md R188). -/
def execDmrDemux (s : State) : Host.Outcome State Fault Refusal :=
  .next (finish .dmrDemux .none (s.withObuf (resultBytes (demuxBytes s.demuxNib s.ibuf).toList)))

end Sys2Proof.Machine
end

