-- ==== Sys2Proof/Machine/Golay.lean ====
section
/-! DEFINITION. The Golay(20,8) encoder (40_golay.md): the parity function, the codeword, its byte layout, and
GOLAY_ENC. -/

namespace Sys2Proof.Machine

/-- One step of a division by the generator of degree 11: shift in a zero, and subtract `g` when the bit of degree
11 is set. `r` holds the remainder so far in bits 10:0. The spec gives a generator of degree 11 only; what this answers
for a `g` without bit 11 is no remainder and a DESIGN CHOICE (log entry 13), and `Tables.wf` refuses such a `GOLAY_G`. -/
def golayShift (g : BitVec 12) (r : BitVec 12) : BitVec 12 :=
  if (r <<< 1).getLsbD 11 then (r <<< 1) ^^^ g else r <<< 1

/-- `R(d) = (d(x) · x^11) mod g(x)` (40_golay.md R101), by long division from `d`'s highest bit down: each bit
enters at degree 11. -/
def golayRemainder (g : BitVec 12) (d : Byte) : BitVec 12 :=
  [7, 6, 5, 4, 3, 2, 1, 0].foldl (fun r i => golayShift g (r ^^^ (if d.getLsbD i then 0x400 else 0))) 0

/-- `popcount(v)` (00_scope.md R10). -/
def popcount {w : Nat} (v : BitVec w) : Nat := ((List.range w).filter fun i => v.getLsbD i).length

/-- `P(d) = (R(d) << 1) | e(d)` with `e(d) = (popcount(d) + popcount(R(d))) mod 2` (40_golay.md R101): the function
that generates the table of R103. -/
def golayRule (g : BitVec 12) (d : Byte) : BitVec 12 :=
  let r := golayRemainder g d
  (r <<< 1) ||| BitVec.ofNat 12 ((popcount d + popcount r) % 2)

/-- `GOLAY_P[d]`: the encoder is a lookup in the 256-entry table (40_golay.md R100, R103). -/
def golayParity (T : Tables) (d : Byte) : BitVec 12 := T.golayP[d.toNat]'(by have := d.isLt; omega)

/-- The codeword `C = d ‖ P(d)`, `C[19:12] = d` and `C[11:0] = P(d)` (40_golay.md R100). -/
def golayCodeword (T : Tables) (d : Byte) : BitVec 20 := d ++ golayParity T d

/-- The codeword as three bytes: `G[0] = d`, `G[1] = P(d)[11:4]`, `G[2] = P(d)[3:0] ‖ 0b0000` (40_golay.md R102). -/
def golayBytes (T : Tables) (d : Byte) : Vector Byte 3 :=
  #v[d, (golayParity T d).extractLsb' 4 8, (golayParity T d).extractLsb' 0 4 ++ 0#4]

/-- GOLAY_ENC with the tables `T` (40_golay.md R104). -/
def golayEncWith (T : Tables) (s : State) : Host.Outcome State Fault Refusal :=
  .next (finish .golayEnc .none (s.withObuf (resultBytes (golayBytes T s.ibuf[0]).toList)))

/-- GOLAY_ENC with the default tables. -/
def execGolayEnc (s : State) : Host.Outcome State Fault Refusal := golayEncWith defaultTables s

end Sys2Proof.Machine
end

