-- ==== Sys2Proof/Machine/ReedSolomon.lean ====
section
/-! DEFINITION. The (12,9) Reed-Solomon parity and the link-control block (42_rs129.md): GF(256), the parity function,
RS_PARITY and LC_ENC. -/

namespace Sys2Proof.Machine

/-- Multiplication by `x` in GF(256): the shift of 42_rs129.md R140, with the primitive polynomial subtracted when the
bit of degree 7 leaves. -/
def gfDouble (prim : BitVec 9) (b : Byte) : Byte :=
  (b <<< 1) ^^^ (if b.getLsbD 7 then prim.setWidth 8 else 0)

/-- `EXP[i] = α^i` with `α = 0x02` (42_rs129.md R140). -/
def gfExp (prim : BitVec 9) : Nat → Byte
  | 0 => 0x01
  | i + 1 => gfDouble prim (gfExp prim i)

/-- `LOG[b]`, the `i` in 0..254 with `EXP[i] = b`, for `b ≠ 0` (42_rs129.md R140). -/
def gfLog (prim : BitVec 9) (b : Byte) : Nat := (List.range 255).findIdx fun i => gfExp prim i = b

/-- `prim` is primitive of degree 8: `α` has order 255 (42_rs129.md R140, 93_implementation_defined.md G10), which it has
when its 255th power is 1 and its powers 255/3, 255/5 and 255/17 are not. -/
def gfPrimitive (prim : BitVec 9) : Bool :=
  prim.getLsbD 8 && decide (gfExp prim 255 = 1) && decide (gfExp prim 85 ≠ 1) && decide (gfExp prim 51 ≠ 1) &&
    decide (gfExp prim 15 ≠ 1)

/-- The field product `gmul(a, b)`: the product of the two polynomials of degree below 8, reduced by the primitive
polynomial (42_rs129.md R140, R141). That it is `EXP[(LOG[a] + LOG[b]) mod 255]` at the default polynomial is an
obligation. For a `prim` that is not primitive LOG does not exist and the spec gives no product: that this function
still answers the polynomial product is a DESIGN CHOICE (log entry 12), and `Tables.wf` refuses such a configuration. -/
def gmul (prim : BitVec 9) (a b : Byte) : Byte :=
  [7, 6, 5, 4, 3, 2, 1, 0].foldl (fun acc i => gfDouble prim acc ^^^ (if b.getLsbD i then a else 0)) 0

/-- The generator `(x + α)(x + α^2)(x + α^3)`, its coefficients from the constant term up (42_rs129.md R142). -/
def rsGenerator (prim : BitVec 9) : Vector Byte 4 :=
  let a := gfExp prim 1
  let b := gfExp prim 2
  let c := gfExp prim 3
  #v[gmul prim (gmul prim a b) c, gmul prim a b ^^^ gmul prim a c ^^^ gmul prim b c, a ^^^ b ^^^ c, 1]

/-- The three parity bytes `r0, r1, r2`, highest degree first (42_rs129.md R143). -/
structure Parity where
  r0 : Byte
  r1 : Byte
  r2 : Byte
deriving DecidableEq, Repr

/-- One message byte through the shift register (42_rs129.md R144). -/
def rsShift (T : Tables) (p : Parity) (m : Byte) : Parity :=
  let f := m ^^^ p.r0
  { r0 := p.r1 ^^^ gmul T.gfPrim T.rsGen[2] f
    r1 := p.r2 ^^^ gmul T.gfPrim T.rsGen[1] f
    r2 := gmul T.gfPrim T.rsGen[0] f }

/-- `RS(m)` of nine message bytes, byte 0 the highest-degree coefficient, in the shift-register form a model may use
(42_rs129.md R143, R144). -/
def rsParity (T : Tables) (m : Vector Byte 9) : Parity := m.toList.foldl (rsShift T) ⟨0, 0, 0⟩

/-- RS_PARITY with the tables `T` (42_rs129.md R145): the unmasked parity. -/
def rsParityWith (T : Tables) (s : State) : Host.Outcome State Fault Refusal :=
  let p := rsParity T (operandBytes s 9 (by decide))
  .next (finish .rsParity .none (s.withObuf (resultBytes [p.r0, p.r1, p.r2])))

/-- RS_PARITY with the default tables. -/
def execRsParity (s : State) : Host.Outcome State Fault Refusal := rsParityWith defaultTables s

/-- The LC parity mask (00_scope.md R7, 42_rs129.md R146). -/
def lcMask : Byte := 0x96

/-- The nine information bytes `LC[0..8]`: three zeros, `dst` and `src`, each big-endian (42_rs129.md R146). -/
def lcInfo (dst src : Ident) : Vector Byte 9 :=
  #v[0x00, 0x00, 0x00, dst.extractLsb' 16 8, dst.extractLsb' 8 8, dst.extractLsb' 0 8,
    src.extractLsb' 16 8, src.extractLsb' 8 8, src.extractLsb' 0 8]

/-- The 12-byte link-control block `LC[0..11]` (42_rs129.md R146). -/
def linkControl (T : Tables) (dst src : Ident) : Vector Byte 12 :=
  let p := rsParity T (lcInfo dst src)
  lcInfo dst src ++ #v[p.r0 ^^^ lcMask, p.r1 ^^^ lcMask, p.r2 ^^^ lcMask]

/-- LC_ENC with the tables `T` (42_rs129.md R147). -/
def lcEncWith (T : Tables) (s : State) : Host.Outcome State Fault Refusal :=
  .next (finish .lcEnc .none (s.withObuf (resultBytes (linkControl T (operandDst s) (operandSrc s)).toList)))

/-- LC_ENC with the default tables. -/
def execLcEnc (s : State) : Host.Outcome State Fault Refusal := lcEncWith defaultTables s

end Sys2Proof.Machine
end

