-- ==== Sys2Proof/Machine/Header.lean ====
section
/-! DEFINITION. The DMR voice-header carrier builder (43_header.md): the sync overwrite, the slot-type splice, and
HDR_BUILD. -/

namespace Sys2Proof.Machine

/-- The sync overwrite: carrier bytes 13-19 are replaced whole by SYNCPAT[0..6] (43_header.md R163). -/
def overwriteSync (k : Vector Byte 33) (sync : Vector Byte 7) : Vector Byte 33 := writeBytes k 13 sync.toList

/-- The slot-type splice: the 20 codeword bits merged into bytes 12, 13, 19 and 20 under the masks of 43_header.md
R161; every other bit keeps its value (R164). `g` is the codeword's byte layout. -/
def spliceSlotType (k : Vector Byte 33) (g : Vector Byte 3) : Vector Byte 33 :=
  let k12 := (k[12] &&& 0xC0) ||| ((g[0] >>> 2) &&& 0x3F)
  let k13 := (k[13] &&& 0x0F) ||| ((g[0] <<< 6) &&& 0xC0) ||| ((g[1] >>> 2) &&& 0x30)
  let k19 := (k[19] &&& 0xF0) ||| ((g[1] >>> 2) &&& 0x0F)
  let k20 := (k[20] &&& 0x03) ||| ((g[1] <<< 6) &&& 0xC0) ||| ((g[2] >>> 2) &&& 0x3C)
  (((k.set 12 k12).set 13 k13).set 19 k19).set 20 k20

/-- The carrier in the order of 43_header.md R160: link control, BPTC, sync overwrite, slot-type splice. -/
def headerCarrier (T : Tables) (dst src : Ident) (st : Byte) (sync : Vector Byte 7) : Vector Byte 33 :=
  spliceSlotType (overwriteSync (bptc T (linkControl T dst src)) sync) (golayBytes T st)

/-- HDR_BUILD with the tables `T` (43_header.md R161). -/
def hdrBuildWith (T : Tables) (s : State) : Host.Outcome State Fault Refusal :=
  .next (finish .hdrBuild .none
    (s.withObuf
      (resultBytes (headerCarrier T (operandDst s) (operandSrc s) (operandSlotType s) s.syncpat).toList)))

/-- HDR_BUILD with the default tables. -/
def execHdrBuild (s : State) : Host.Outcome State Fault Refusal := hdrBuildWith defaultTables s

end Sys2Proof.Machine
end

