-- ==== Sys2Proof/Machine/SlowData.lean ====
section
/-! DEFINITION. The slow-data assembler (45_slowdata.md): SD_FRAME and SD_RESET. -/

namespace Sys2Proof.Machine

/-- `SD_SYNC[0..2]` (45_slowdata.md R201). -/
def sdSync : Vector Byte 3 := #v[0x55, 0x2D, 0x16]

/-- `SD_KEY[0..2]` (45_slowdata.md R201). -/
def sdKey : Vector Byte 3 := #v[0x70, 0x4F, 0x93]

/-- `BASE[n]`, where step `n`'s bytes start in SD_BUF (45_slowdata.md R201, R205). -/
def SdStep.base : SdStep → Nat
  | .s1 => 0
  | .s2 => 2
  | .s3 => 5
  | .s4 => 7
  | .s5 => 10
  | .s6 => 12
  | .s7 => 15
  | .s8 => 17

/-- `SD_MARKER[n]` on the odd steps; even steps have no marker (45_slowdata.md R201, R206). -/
def SdStep.marker (T : Tables) : SdStep → Option Byte
  | .s1 => some T.sdMarker[0]
  | .s3 => some T.sdMarker[1]
  | .s5 => some T.sdMarker[2]
  | .s7 => some T.sdMarker[3]
  | .s2 | .s4 | .s6 | .s8 => none

/-- The step after `n`; none after step 8 (45_slowdata.md R207, R208). -/
def SdStep.next : SdStep → Option SdStep
  | .s1 => some .s2
  | .s2 => some .s3
  | .s3 => some .s4
  | .s4 => some .s5
  | .s5 => some .s6
  | .s6 => some .s7
  | .s7 => some .s8
  | .s8 => none

/-- The unscrambled bytes `u[i] = a[i] ^ SD_KEY[i]`, the key starting again at `SD_KEY[0]` for every frame
(45_slowdata.md R205). -/
def unscramble (a : Vector Byte 3) : Vector Byte 3 := #v[a[0] ^^^ sdKey[0], a[1] ^^^ sdKey[1], a[2] ^^^ sdKey[2]]

/-- The recovered bytes of step `n`: `u[1], u[2]` on odd steps, `u[0], u[1], u[2]` on even steps (45_slowdata.md
R205). -/
def SdStep.recovered : SdStep → Vector Byte 3 → List Byte
  | .s1, u | .s3, u | .s5, u | .s7, u => [u[1], u[2]]
  | .s2, u | .s4, u | .s6, u | .s8, u => [u[0], u[1], u[2]]

/-- The marker test of step `n`, true on even steps (45_slowdata.md R206, R212). -/
def markerMatches (T : Tables) (n : SdStep) (u : Vector Byte 3) : Bool :=
  match n.marker T with
  | some m => decide (u[0] = m)
  | none => true

/-- A sync frame: `seq = 0x00` and the three raw bytes equal SD_SYNC (45_slowdata.md R203). -/
def isSyncFrame (seq : Byte) (a : Vector Byte 3) : Bool := decide (seq = 0x00) && decide (a = sdSync)

/-- `Disarm()`: SD_ARMED, SD_STEP and SD_BUF cleared (45_slowdata.md R210). -/
def disarm (s : State) : State := (s.withSdCtl .disarmed).withSdBuf (zeroBytes 20)

/-- Sync: Armed(1) with an empty buffer (45_slowdata.md R203). -/
def armOnSync (s : State) : State := (s.withSdCtl (.armed .s1)).withSdBuf (zeroBytes 20)

/-- Emission: SD_TEXT receives the 20 bytes of `buf` and a terminating 0x00, SD_TVALID is set (45_slowdata.md R208). -/
def emitText (buf : Vector Byte 20) (s : State) : State := (s.withSdText (buf.push 0x00)).withSdTvalid true

/-- Step `n` accepted (45_slowdata.md R205, R207, R208): its bytes are placed, and either the next step is expected,
or, after step 8, the text is emitted and the assembler disarms. -/
def acceptStep (n : SdStep) (u : Vector Byte 3) (s : State) : State × SdEvent :=
  let buf := writeBytes s.sdBuf n.base (n.recovered u)
  match n.next with
  | some n' => ((s.withSdBuf buf).withSdCtl (.armed n'), .step)
  | none => (disarm (emitText buf s), .emit)

/-- The transition of the assembler on one frame, the tests in the order of 45_slowdata.md R210. -/
def presentFrame (T : Tables) (seq : Byte) (a : Vector Byte 3) (s : State) : State × SdEvent :=
  if isSyncFrame seq a then (armOnSync s, .sync)
  else
    match s.sdCtl with
    | .disarmed => (s, .idle)
    | .armed n =>
      if seq ≠ n.num.setWidth 8 then
        if s.sdSkip then (disarm s, .seqDisarm) else (s, .seqIgnore)
      else if markerMatches T n (unscramble a) then acceptStep n (unscramble a) s
      else (disarm s, .markerFail)

/-- SD_FRAME with the tables `T` (45_slowdata.md R210). -/
def sdFrameWith (T : Tables) (s : State) : Host.Outcome State Fault Refusal :=
  let r := presentFrame T (operandSeq s) (operandAux s) s
  .next (finish .sdFrame r.2 r.1)

/-- SD_FRAME with the default tables. -/
def execSdFrame (s : State) : Host.Outcome State Fault Refusal := sdFrameWith defaultTables s

/-- SD_RESET (45_slowdata.md R211): SD_TEXT keeps its value. -/
def execSdReset (s : State) : Host.Outcome State Fault Refusal :=
  .next (finish .sdReset .none ((disarm s).withSdTvalid false))

end Sys2Proof.Machine
end

