-- ==== Sys2Proof/Machine/Configured.lean ====
section
/-! DEFINITION. The command set with its configuration argument (00_scope.md R7, decision D29): what every command does in
a block built with the tables `T`. `Machine.exec` is the block built with the spec's defaults. -/

namespace Sys2Proof.Machine

/-- The command `i` in a block built with the tables `T`, which no command writes (00_scope.md R8). It does not
test `Tables.wf`: with ill-formed tables it still answers a next state, the model's choice (log entry 14). NOP, DMR_DEMUX
and SD_RESET read no table. -/
def execWith (T : Tables) (i : Instr) (s : State) : Host.Outcome State Fault Refusal :=
  match i with
  | .nop => execNop s
  | .golayEnc => golayEncWith T s
  | .bptcEnc => bptcEncWith T s
  | .rsParity => rsParityWith T s
  | .lcEnc => lcEncWith T s
  | .hdrBuild => hdrBuildWith T s
  | .deintA => deintAWith T s
  | .deintB => deintBWith T s
  | .dmrDemux => execDmrDemux s
  | .sdReset => execSdReset s
  | .sdFrame => sdFrameWith T s

end Sys2Proof.Machine
end

