-- ==== Sys2Proof/Machine/Dispatch.lean ====
section
/-! DEFINITION. One arm per command (46_control.md R230, 30_encoding.md R82). -/

namespace Sys2Proof.Machine

def exec (i : Instr) (s : State) : Host.Outcome State Fault Refusal :=
  match i with
  | .nop => Sys2Proof.Machine.execNop s
  | .golayEnc => Sys2Proof.Machine.execGolayEnc s
  | .bptcEnc => Sys2Proof.Machine.execBptcEnc s
  | .rsParity => Sys2Proof.Machine.execRsParity s
  | .lcEnc => Sys2Proof.Machine.execLcEnc s
  | .hdrBuild => Sys2Proof.Machine.execHdrBuild s
  | .deintA => Sys2Proof.Machine.execDeintA s
  | .deintB => Sys2Proof.Machine.execDeintB s
  | .dmrDemux => Sys2Proof.Machine.execDmrDemux s
  | .sdReset => Sys2Proof.Machine.execSdReset s
  | .sdFrame => Sys2Proof.Machine.execSdFrame s

end Sys2Proof.Machine
end

