-- ==== Sys2Proof/Machine/Execute.lean ====
section
/-! DEFINITION. Issuing a command (46_control.md R230), the host's write (20_memory.md R61), and what each input from
outside does to the block. Each is written once over the command set `run`, and then taken at the default tables
(`exec`) and at any configuration (`execWith T`, 00_scope.md R7). -/

namespace Sys2Proof.Machine

/-- What a command does: `exec`, or `execWith T` for a configuration `T`. -/
abbrev CommandSet := Instr → State → Host.Outcome State Fault Refusal

/-- `Execute(w)`: perform the command, or take IllegalCommand (46_control.md R230). -/
def executeBy (run : CommandSet) (w : Byte) (s : State) : Host.Outcome State Fault Refusal :=
  match decode w with
  | .ok i => run i s
  | .error _ => .next (raiseIllegalCommand w s)

/-- `MemWrite(addr, 1, v)` (20_memory.md R61): a write to CMD issues the command `v` (10_state.md R48). -/
def hostWriteBy (run : CommandSet) (addr v : Byte) (s : State) : Host.Outcome State Fault Refusal :=
  match region addr with
  | .cmd => executeBy run v s
  | r => .next (writeRegion r v s)

/-- A host read: the value goes to the host, and no state of the block changes (20_memory.md R62). -/
def hostRead (addr : Byte) (s : State) : State := s.withObserved (s.observed ++ [memRead addr s])

/-- The reset event (70_reset_and_hazards.md R260): every register takes its reset value. The host's own side of the
bus, what it has read and what it will do next, is not the block's and stays (log entry 3). -/
def resetBlock (s : State) : State := (State.reset.withPending s.pending).withObserved s.observed

/-- What one input does (20_memory.md R61, 70_reset_and_hazards.md R260). -/
def performBy (run : CommandSet) (x : Input) (s : State) : Host.Outcome State Fault Refusal :=
  match x with
  | .read addr => .next (hostRead addr s)
  | .write addr v => hostWriteBy run addr v s
  | .reset => .next (resetBlock s)

/-- One step of the machine: the host's next access or the platform's reset, performed to completion (20_memory.md
R70). With nothing pending the block does nothing: nothing in it advances on its own (10_state.md R30). -/
def stepBy (run : CommandSet) (s : State) : Host.Outcome State Fault Refusal :=
  match s.pending with
  | [] => .next s
  | x :: rest => performBy run x (s.withPending rest)

/-- `Execute(w)` with the default tables. -/
def execute (w : Byte) (s : State) : Host.Outcome State Fault Refusal := executeBy exec w s

/-- `MemWrite(addr, 1, v)` with the default tables. -/
def hostWrite (addr v : Byte) (s : State) : Host.Outcome State Fault Refusal := hostWriteBy exec addr v s

/-- One input with the default tables. -/
def perform (x : Input) (s : State) : Host.Outcome State Fault Refusal := performBy exec x s

/-- One step with the default tables. -/
def stepInput (s : State) : Host.Outcome State Fault Refusal := stepBy exec s

/-- One step of a block built with the tables `T` (00_scope.md R7, decision D29). -/
def stepWith (T : Tables) (s : State) : Host.Outcome State Fault Refusal := stepBy (execWith T) s

/-- The state `s` with the CMD write that issues the table word `w` of `nbits` bits as the host's next access
(10_state.md R48). -/
def placeCommand (s : State) (nbits w : Nat) : State :=
  s.withPending (.write 0xFF (BitVec.ofNat 8 (w % 2 ^ nbits)) :: s.pending)

end Sys2Proof.Machine
end

