-- ==== Sys2Proof/Machine/Step.lean ====
section
/-! DEFINITION. The step function and the placing of one command. -/

namespace Sys2Proof.Machine

/-- One step (46_control.md R230, 20_memory.md R70). -/
def step : State → Host.Outcome State Fault Refusal := stepInput

/-- `s` with the command of the table word `w` as the very next thing the host issues; nothing else changes. -/
def State.withFetchWord (s : State) (nbits w : Nat) : State := placeCommand s nbits w

end Sys2Proof.Machine
end

