-- ==== Sys2Proof/WellFormed.lean ====
section
/-! DEFINITION. Well-formedness: of commands (they have no operand, so every one is well-formed), of host-program
lines (30_encoding.md R87), and of a configuration (44_deinterleave.md R181, R184; 93_implementation_defined.md
Part 1 row 13 and Part 2 G1, G3, G5 to G8, G10, G11). -/

namespace Sys2Proof

/-- Every command is well-formed: a command carries no immediate and no register field (30_encoding.md R81). -/
def Instr.wf : Instr → Bool
  | .nop | .golayEnc | .bptcEnc | .rsParity | .lcEnc | .hdrBuild | .deintA | .deintB | .dmrDemux | .sdReset
  | .sdFrame => true

/-- A host line is well-formed when its bytes stay inside the buffers it names: `ldi` loads at least one byte with
`OFF + k ≤ 0x20` (30_encoding.md R87). For `ld24` and `movob` the same bound is read from "IBUF bytes" and
"copies OBUF bytes into IBUF" (DEDUCED, log entry 7). -/
def HostLine.wf : HostLine → Bool
  | .ldi off bytes => !bytes.isEmpty && decide (off + bytes.length ≤ 33)
  | .ld24 off _ => decide (off + 3 ≤ 33)
  | .movob i j n => decide (i + n ≤ 33) && decide (j + n ≤ 33)
  | .command i => i.wf
  | .wr _ _ | .rd _ | .word _ | .setcfg _ | .setsync _ | .sdframe _ _ _ _ => true

/-- The 72 cells Family A names, in the order of the stream bits (44_deinterleave.md R181). -/
def Tables.cellsA (T : Tables) : List (Fin 4 × Fin 24) :=
  (List.finRange 72).map fun k => (T.tabAW[k.val], T.tabAX[k.val])

/-- The 36 cells `(W[k], X[k])` and then the 36 cells `(Y[k], Z[k])` of Family B (44_deinterleave.md R184). -/
def Tables.cellsB (T : Tables) : List (Fin 4 × Fin 24) :=
  ((List.finRange 36).map fun k => (T.tabBW[k.val], T.tabBX[k.val])) ++
    ((List.finRange 36).map fun k => (T.tabBY[k.val], T.tabBZ[k.val]))

/-- A matrix position that can hold data: row 0-8, column 0-10, and not `M[1..3]` (41_bptc.md R120, R122). -/
def dataPosition (a : Nat) : Bool :=
  decide (4 ≤ a) && decide ((a - 1) / 15 ≤ 8) && decide ((a - 1) % 15 ≤ 10)

/-- The parity pattern of data bit `c`: which of the four equations it enters, counting a repeat as the exclusive-or does
(41_bptc.md R124, R125). -/
def parityPattern {n : Nat} (equations : Vector (List (Fin n)) 4) (c : Fin n) : List Bool :=
  equations.toList.map fun e => decide (e.count c % 2 = 1)

/-- The data bits of a Hamming code have distinct parity patterns of weight 2 or more, so that its minimum distance is 3
(41_bptc.md R124, R125, 93_implementation_defined.md G6, G7). That a configured table must keep this is a DESIGN CHOICE
(log entry 15). -/
def hammingPatterns {n : Nat} (equations : Vector (List (Fin n)) 4) : Bool :=
  decide ((List.finRange n).map (parityPattern equations)).Nodup &&
    (List.finRange n).all fun c => decide (2 ≤ (parityPattern equations c).count true)

/-- `GOLAY_G` has degree 11, as the generator of 40_golay.md R101 has, and `GOLAY_P` is the table that the parity
function of R101 generates from it (R103). -/
def Tables.golayGenerated (T : Tables) : Bool :=
  T.golayG.getLsbD 11 &&
    (List.finRange 256).all fun d => decide (T.golayP[d.val] = Machine.golayRule T.golayG (BitVec.ofNat 8 d.val))

/-- A configuration is well-formed: no deinterleave table names a cell twice (44_deinterleave.md R181, R184; the types
keep every cell inside 4×24), the data slots are 96 distinct data positions (G5), the Hamming equations keep distinct
patterns of weight 2 or more (G6, G7), the interleave is a bijection of the 196 positions (G8), the field's polynomial is
primitive (G10), the Reed-Solomon generator is the one the field gives (G11, 42_rs129.md R142), the Golay generator has
degree 11 (G1) and the Golay table is the one it gives (G3). A configuration this refuses is ill-formed; `execWith` and
`stepWith` do not test it (log entry 14). Of these conditions the spec requires only those of R181 and R184; that the
others are asked, and no more than these, is a DESIGN CHOICE (log entry 15). -/
def Tables.wf (T : Tables) : Bool :=
  decide T.cellsA.Nodup && decide T.cellsB.Nodup &&
    decide ((T.bptcSlots.toList.map Fin.val).Nodup) && T.bptcSlots.toList.all (fun a => dataPosition a.val) &&
    hammingPatterns T.hamRow && hammingPatterns T.hamCol &&
    decide (T.bptcIlvMod = 196) && decide (Nat.Coprime T.bptcIlv T.bptcIlvMod) &&
    Machine.gfPrimitive T.gfPrim && decide (T.rsGen = Machine.rsGenerator T.gfPrim) && T.golayGenerated

end Sys2Proof
end

