-- ==== Sys2Proof/Machine/HostProgram.lean ====
section
/-! DEFINITION. Host programs: the expansion of every assembly line and pseudo-instruction to host accesses
(30_encoding.md R86, R87), and running them. -/

namespace Sys2Proof.Machine

/-- One act of a host program's expansion: an access, or `movob`'s pair of a read and a write of the value read. -/
inductive HostAct where
  | access (x : Input)
  | copy (src dst : Byte)
deriving DecidableEq, Repr

/-- The one-byte writes of `bytes` from address `off` up. -/
def writesFrom (off : Nat) (bytes : List Byte) : List HostAct :=
  bytes.zipIdx.map fun p => .access (.write (BitVec.ofNat 8 (off + p.2)) p.1)

/-- The issue of a command word: `wr 0xFF, w` (30_encoding.md R86). -/
def issue (w : Byte) : HostAct := .access (.write 0xFF w)

/-- The exact expansion of a line (30_encoding.md R86, R87). -/
def expand : HostLine → List HostAct
  | .wr addr v => [.access (.write addr v)]
  | .rd addr => [.access (.read addr)]
  | .command i => [issue (encode i)]
  | .word v => [issue v]
  | .ldi off bytes => writesFrom off bytes
  | .ld24 off v => writesFrom off [v.extractLsb' 16 8, v.extractLsb' 8 8, v.extractLsb' 0 8]
  | .setcfg v => [.access (.write 0xE0 v)]
  | .setsync bytes => writesFrom 0xE8 bytes.toList
  | .sdframe seq a0 a1 a2 => writesFrom 0x00 [seq, a0, a1, a2] ++ [issue (encode .sdFrame)]
  | .movob i j n => (List.range n).map fun t => .copy (BitVec.ofNat 8 (0x40 + i + t)) (BitVec.ofNat 8 (j + t))

/-- One act: `copy` reads `src` and then writes the value read to `dst` (30_encoding.md R87, `movob`). -/
def runAct (act : HostAct) (s : State) : Host.Outcome State Fault Refusal :=
  match act with
  | .access x => perform x s
  | .copy src dst => hostWrite dst (memRead src s) (hostRead src s)

/-- Acts in program order, each complete before the next begins (20_memory.md R70). -/
def runActs : List HostAct → State → Host.Outcome State Fault Refusal
  | [], s => .next s
  | act :: rest, s =>
    match runAct act s with
    | .next t => runActs rest t
    | .fault r => .fault r
    | .refused r => .refused r

/-- Running one line of a host program. -/
def runLine (l : HostLine) (s : State) : Host.Outcome State Fault Refusal := runActs (expand l) s

end Sys2Proof.Machine
end

