-- ==== Sys2Proof/Safety.lean ====
section
/-! DEFINITION. The terms in which claims about the block are stated: what the host issues next, the assembler's
invariant (10_state.md R50), polynomial codes read from outside the encoders, and the slow-data frames and their
history (45_slowdata.md R213). -/

namespace Sys2Proof.Machine

/-! ### Inputs and outcomes -/

/-- A step that goes on: the block never faults and a step never fails to complete (46_control.md R230,
60_exceptions.md R241). -/
def Completes (o : Host.Outcome State Fault Refusal) : Prop := ∃ t, o = .next t

/-- The host's next access issues the command word `w` (10_state.md R48). -/
def Issues (s : State) (w : Byte) : Prop := s.pending.head? = some (.write 0xFF w)

/-- The next input is the platform's reset (70_reset_and_hazards.md R260). -/
def Resets (s : State) : Prop := s.pending.head? = some .reset

/-- The illegal command words: RSV ≠ 0, or OP in 0xB..0xF (30_encoding.md R83). -/
def IsIllegalWord (w : Byte) : Prop := w.extractLsb' 4 4 ≠ 0 ∨ 0xB ≤ (w.extractLsb' 0 4).toNat

/-- The commands with byte results (10_state.md R33). -/
def producesBytes : Instr → Bool
  | .golayEnc | .bptcEnc | .rsParity | .lcEnc | .hdrBuild | .dmrDemux => true
  | .nop | .deintA | .deintB | .sdReset | .sdFrame => false

/-- The IBUF bytes each command reads, as the table of 30_encoding.md R82 lists them: those below the bound. -/
def readsBelow : Instr → Nat
  | .nop | .sdReset => 0
  | .golayEnc => 1
  | .bptcEnc => 12
  | .rsParity | .deintA | .deintB => 9
  | .lcEnc => 6
  | .hdrBuild => 7
  | .dmrDemux => 33
  | .sdFrame => 4

/-- The host addresses each command may change, from the Writes column of 30_encoding.md R82 and the map of
10_state.md R31. SD_STATE is listed with the assembler's registers it shows (R49). -/
def mayWrite (i : Instr) (addr : Nat) : Prop :=
  addr = 0xF0 ∨
  (producesBytes i = true ∧ 0x40 ≤ addr ∧ addr ≤ 0x60) ∨
  ((i = .deintA ∨ i = .deintB) ∧ 0x80 ≤ addr ∧ addr ≤ 0x8B) ∨
  ((i = .sdReset ∨ i = .sdFrame) ∧ (addr = 0x90 ∨ 0xA0 ≤ addr ∧ addr ≤ 0xB3)) ∨
  (i = .sdFrame ∧ 0xC0 ≤ addr ∧ addr ≤ 0xD4)

/-- The unmapped addresses of 20_memory.md R63. -/
def IsUnmapped (a : Nat) : Prop :=
  (0x21 ≤ a ∧ a ≤ 0x3F) ∨ (0x61 ≤ a ∧ a ≤ 0x7F) ∨ (0x8C ≤ a ∧ a ≤ 0x8F) ∨ (0x91 ≤ a ∧ a ≤ 0x9F) ∨
  (0xB4 ≤ a ∧ a ≤ 0xBF) ∨ (0xD5 ≤ a ∧ a ≤ 0xDF) ∨ (0xE1 ≤ a ∧ a ≤ 0xE7) ∨ a = 0xEF ∨ (0xF1 ≤ a ∧ a ≤ 0xFE)

/-- The addresses of the read-only registers (10_state.md R31, 20_memory.md R63). -/
def IsReadOnly (a : Nat) : Prop :=
  (0x40 ≤ a ∧ a ≤ 0x60) ∨ (0x80 ≤ a ∧ a ≤ 0x8B) ∨ a = 0x90 ∨ (0xA0 ≤ a ∧ a ≤ 0xB3) ∨ (0xC0 ≤ a ∧ a ≤ 0xD4) ∨ a = 0xF0

/-! ### The invariant of the assembler -/

/-- The state invariant of 10_state.md R50: disarmed, SD_STEP is 0 and SD_BUF is all 0x00; armed, 1 ≤ SD_STEP ≤ 8;
armed with SD_STEP = n, every byte from `BASE[n]` on is 0x00. -/
def AssemblerInvariant (s : State) : Prop :=
  (sdArmed s = false → sdStep s = 0 ∧ ∀ i : Fin 20, s.sdBuf[i.val] = 0x00) ∧
  (sdArmed s = true → 1 ≤ (sdStep s).toNat ∧ (sdStep s).toNat ≤ 8) ∧
  (∀ n, s.sdCtl = .armed n → ∀ i : Fin 20, n.base ≤ i.val → s.sdBuf[i.val] = 0x00)

/-! ### Codes, read from outside the encoders -/

/-- The product of two polynomials over GF(2), the lower 20 coefficients (40_golay.md R101). -/
def clmul (q : Byte) (g : BitVec 12) : BitVec 20 :=
  [0, 1, 2, 3, 4, 5, 6, 7].foldl (fun acc i => if q.getLsbD i then acc ^^^ (g.setWidth 20 <<< i) else acc) 0

/-- Bit `n` of a 33-byte carrier, counted MSB-first from 0: carrier bit `8i + (7-j)` is `K[i][j]` (43_header.md R164). -/
def carrierBitOf (k : Vector Byte 33) (n : Nat) : Bool := msbStream k n

/-- The matrix position of input bit `k`, written out from 41_bptc.md R121: 8 in row 0 from position 4, then 11 a row
from positions 16, 31, ..., 121. -/
def slotOf (k : Nat) : Nat := if k < 8 then 4 + k else 16 + 15 * ((k - 8) / 11) + (k - 8) % 11

/-- `h[0..14]` satisfies the four equations of Hamming(15,11,3) (41_bptc.md R124). -/
def IsHamming15 (h : Nat → Bool) : Prop :=
  h 11 = (h 0 ^^ h 1 ^^ h 2 ^^ h 3 ^^ h 5 ^^ h 7 ^^ h 8) ∧
  h 12 = (h 1 ^^ h 2 ^^ h 3 ^^ h 4 ^^ h 6 ^^ h 8 ^^ h 9) ∧
  h 13 = (h 2 ^^ h 3 ^^ h 4 ^^ h 5 ^^ h 7 ^^ h 9 ^^ h 10) ∧
  h 14 = (h 0 ^^ h 1 ^^ h 2 ^^ h 4 ^^ h 6 ^^ h 7 ^^ h 10)

/-- `v[0..12]` satisfies the four equations of Hamming(13,9,3) (41_bptc.md R125). -/
def IsHamming13 (v : Nat → Bool) : Prop :=
  v 9 = (v 0 ^^ v 1 ^^ v 3 ^^ v 5 ^^ v 6) ∧
  v 10 = (v 0 ^^ v 1 ^^ v 2 ^^ v 4 ^^ v 6 ^^ v 7) ∧
  v 11 = (v 0 ^^ v 1 ^^ v 2 ^^ v 3 ^^ v 5 ^^ v 7 ^^ v 8) ∧
  v 12 = (v 0 ^^ v 2 ^^ v 4 ^^ v 5 ^^ v 8)

/-- A polynomial over GF(256), coefficients from the highest degree down, evaluated at `x` (42_rs129.md R143). -/
def gfEval (coeffs : List Byte) (x : Byte) : Byte := coeffs.foldl (fun acc c => gmul 0x11D acc x ^^^ c) 0

/-- Twelve bytes are a codeword: the polynomial with byte 0 highest is 0 at `α`, `α^2` and `α^3` (42_rs129.md R143). -/
def IsRsCodeword (c : List Byte) : Prop := gfEval c 0x02 = 0 ∧ gfEval c 0x04 = 0 ∧ gfEval c 0x08 = 0

/-! ### Slow-data frames -/

/-- IBUF[0..3] holds a sync frame (45_slowdata.md R203). -/
def HoldsSyncFrame (s : State) : Prop :=
  s.ibuf[0] = 0x00 ∧ s.ibuf[1] = 0x55 ∧ s.ibuf[2] = 0x2D ∧ s.ibuf[3] = 0x16

/-- IBUF[0] is the step an armed assembler expects (45_slowdata.md R204, R205). -/
def HoldsExpectedStep (s : State) : Prop := sdArmed s = true ∧ s.ibuf[0].toNat = (sdStep s).toNat

/-- The unscrambled byte `u[0]` of the frame in IBUF (45_slowdata.md R205). -/
def frameU0 (s : State) : Byte := s.ibuf[1] ^^^ 0x70

/-- The unscrambled byte `u[1]` (45_slowdata.md R205). -/
def frameU1 (s : State) : Byte := s.ibuf[2] ^^^ 0x4F

/-- The unscrambled byte `u[2]` (45_slowdata.md R205). -/
def frameU2 (s : State) : Byte := s.ibuf[3] ^^^ 0x93

/-- `BASE[n]` and `CNT[n]` as the table of 45_slowdata.md R201 lists them, for n = 1..8. -/
def baseOf (n : Nat) : Nat := [0, 0, 2, 5, 7, 10, 12, 15, 17].getD n 0

/-- The recovered bytes of step `n` (45_slowdata.md R205): two on odd steps, three on even ones. -/
def recoveredOf (n : Nat) (s : State) : List Byte := if n % 2 = 1 then [frameU1 s, frameU2 s] else [frameU0 s, frameU1 s, frameU2 s]

/-- The marker test of step `n` on the frame in IBUF (45_slowdata.md R206): 0x40, 0x41, 0x42, 0x43 on steps 1, 3, 5, 7,
and no test on even steps (R201). -/
def MarkerHolds (n : Nat) (s : State) : Prop := n % 2 = 1 → (frameU0 s).toNat = 0x40 + (n - 1) / 2

/-- One voice frame as the host presents it. -/
structure VoiceFrame where
  seq : Byte
  aux : Vector Byte 3
deriving DecidableEq, Repr

/-- `sdframe` of one frame: IBUF[0..3] written, then SD_FRAME (30_encoding.md R87). -/
def presentVoiceFrame (f : VoiceFrame) (s : State) : Host.Outcome State Fault Refusal :=
  runLine (.sdframe f.seq f.aux[0] f.aux[1] f.aux[2]) s

/-- The frames of a list presented in order. -/
def presentVoiceFrames : List VoiceFrame → State → Host.Outcome State Fault Refusal
  | [], s => .next s
  | f :: rest, s =>
    match presentVoiceFrame f s with
    | .next t => presentVoiceFrames rest t
    | .fault r => .fault r
    | .refused r => .refused r

/-- The sync frame (45_slowdata.md R203). -/
def syncFrame : VoiceFrame := ⟨0x00, #v[0x55, 0x2D, 0x16]⟩

/-- The frame with counter `n` that carries the unscrambled bytes `x, y, z` (45_slowdata.md R205). -/
def scrambledFrame (n x y z : Byte) : VoiceFrame := ⟨n, #v[x ^^^ 0x70, y ^^^ 0x4F, z ^^^ 0x93]⟩

/-- The eight frames of a 20-byte text, with the bytes `m1, m3, m5, m7` in the marker's place on the odd steps
(45_slowdata.md R205). -/
def textFrames (x : Vector Byte 20) (m1 m3 m5 m7 : Byte) : List VoiceFrame :=
  [scrambledFrame 1 m1 x[0] x[1], scrambledFrame 2 x[2] x[3] x[4], scrambledFrame 3 m3 x[5] x[6],
    scrambledFrame 4 x[7] x[8] x[9], scrambledFrame 5 m5 x[10] x[11], scrambledFrame 6 x[12] x[13] x[14],
    scrambledFrame 7 m7 x[15] x[16], scrambledFrame 8 x[17] x[18] x[19]]

/-- What an observer of the bus has recorded of the current message: nothing while no sync stands, or the steps
accepted since the last sync, in order, each with its recovered bytes. -/
abbrev StepLog := Option (List (Nat × List Byte))

/-- The observer's record after a step from `s` to `t`, read from what the host issued and from the SD_EV the block
reported (10_state.md R47): SYNC starts an empty record, STEP appends, and EMIT, a failed marker, a disarm,
SD_RESET and reset end it. -/
def nextLog (s t : State) (log : StepLog) : StepLog :=
  match s.pending.head? with
  | some .reset => none
  | some (.write a v) =>
    if a = 0xFF ∧ v = 0x09 then none
    else if a = 0xFF ∧ v = 0x0A then
      match (statusSdEv t.status).toNat with
      | 1 => some []
      | 2 => log.map fun l => l ++ [((sdStep s).toNat, recoveredOf (sdStep s).toNat s)]
      | 3 | 4 | 6 => none
      | _ => log
    else log
  | _ => log

/-- What ties the observer's record to the assembler: no record stands exactly while it is disarmed; armed with
SD_STEP = n, the record holds steps 1 to n - 1, in order, and their bytes are SD_BUF's below `BASE[n]` (45_slowdata.md
R205, R207, R213). -/
def RecordInvariant (s : State) (log : StepLog) : Prop :=
  match log with
  | none => sdArmed s = false
  | some l => sdArmed s = true ∧ l.map Prod.fst = List.range' 1 ((sdStep s).toNat - 1) ∧
      l.flatMap Prod.snd = s.sdBuf.toList.take (baseOf (sdStep s).toNat)

/-- The states a run reaches from a disarmed assembler, with the observer's record of it. -/
inductive Recorded : State → StepLog → Prop where
  | start (s : State) : sdArmed s = false → Recorded s none
  | step (s t : State) (log : StepLog) : Recorded s log → step s = .next t → Recorded t (nextLog s t log)

end Sys2Proof.Machine
end

