-- ==== Sys2Proof/Certificates/Slice0/Obligations.lean ====
section
/-! DEFINITION. The statements for the provers, each `def Obligations.<Name> : Prop`, listed in OBLIGATIONS.json. A
statement about a command says that `exec` answers a next state `t` for EVERY state, and says what `t` is: the
equation `t = s with some fields from t` is its frame, every other register unchanged. `exec` and `step` are the block built
with the spec's default tables; a statement about any tables names them (`execWith T`, `stepWith T`, 00_scope.md §4). -/

open Sys2Proof
open Sys2Proof.Machine

/-! ### Encoding (30_encoding.md) -/

/-- Decode and encode agree in both directions, over all commands and all 256 words (30_encoding.md §2, §3). -/
def Obligations.DecodeEncodeAgree : Prop :=
  (∀ i : Instr, decode (encode i) = .ok i) ∧ (∀ (w : Byte) (i : Instr), decode w = .ok i → encode i = w)

/-- The words of the opcode map, written out from its table (30_encoding.md §2). -/
def Obligations.OpcodeWordsDecode : Prop :=
  decodeTableWord 8 0x00 = some .nop ∧ decodeTableWord 8 0x01 = some .golayEnc ∧
  decodeTableWord 8 0x02 = some .bptcEnc ∧ decodeTableWord 8 0x03 = some .rsParity ∧
  decodeTableWord 8 0x04 = some .lcEnc ∧ decodeTableWord 8 0x05 = some .hdrBuild ∧
  decodeTableWord 8 0x06 = some .deintA ∧ decodeTableWord 8 0x07 = some .deintB ∧
  decodeTableWord 8 0x08 = some .dmrDemux ∧ decodeTableWord 8 0x09 = some .sdReset ∧
  decodeTableWord 8 0x0A = some .sdFrame

/-- R83: the illegal words are exactly those with RSV ≠ 0 or OP in 0xB-0xF, and issuing one rewrites STATUS and
changes nothing else. -/
def Obligations.IllegalWordsRaiseIllegalCommand : Prop :=
  ∀ (w : Byte) (s : State),
    (IsIllegalWord w ↔ ∀ i, decode w ≠ .ok i) ∧
    (IsIllegalWord w → execute w s = .next { s with status := 0b000#3 ++ 0b1#1 ++ w.extractLsb' 0 4 })

/-! ### Steps and the register space -/

/-- A step runs the decoded command: a CMD write of a legal word is `exec` of its command on the state without that
input (46_control.md). Every command is well-formed (30_encoding.md R81). -/
def Obligations.StepRunsDecodedCommand : Prop :=
  ∀ (s : State) (w : Byte) (i : Instr) (rest : List Input),
    s.pending = .write 0xFF w :: rest → decode w = .ok i → i.wf = true ∧ step s = exec i { s with pending := rest }

/-- A step that issues an illegal word takes IllegalCommand: of the block's registers only STATUS changes, and the host
reads it there (60_exceptions.md §1, §3). That the step takes the write off `pending` is the model's choice (log entry
3). -/
def Obligations.StepTakesIllegalCommand : Prop :=
  ∀ (s : State) (w : Byte) (rest : List Input),
    s.pending = .write 0xFF w :: rest → IsIllegalWord w →
      ∃ t, step s = .next t ∧ t = { s with pending := rest, status := 0b000#3 ++ 0b1#1 ++ w.extractLsb' 0 4 } ∧
        memRead 0xF0 t = 0b000#3 ++ 0b1#1 ++ w.extractLsb' 0 4

/-- A host read returns the byte to the host and changes no register, so a second read returns the same byte
(20_memory.md §1, §3). That the step takes the read off `pending` and appends the byte to `observed` is the model's choice
(log entry 3). -/
def Obligations.HostReadHasNoSideEffect : Prop :=
  ∀ (s : State) (a : Byte) (rest : List Input), s.pending = .read a :: rest →
    ∃ t, step s = .next t ∧ t = { s with pending := rest, observed := s.observed ++ [memRead a s] } ∧
      ∀ b, memRead b t = memRead b s

/-- With nothing pending a step changes nothing: the model's choice (log entry 3), after 10_state.md §1 "Nothing in
the block advances". -/
def Obligations.IdleBlockStaysPut : Prop := ∀ s : State, s.pending = [] → step s = .next s

/-- Every step answers a next state: no step faults and none is refused (46_control.md, 60_exceptions.md §1). The second
clause says it of a block built with any tables (00_scope.md §4): for ill-formed tables, to which
93_implementation_defined.md Part 1 row 13 gives the treatment `refuse`, that the step goes on is the model's choice (log
entries 4, 12, 13 and 14). -/
def Obligations.EveryStepCompletes : Prop :=
  (∀ s : State, Completes (step s)) ∧ ∀ (T : Tables) (s : State), Completes (stepWith T s)

/-- What every address reads, mapped or unmapped, `MemRead` of 20_memory.md §1 (10_state.md §2). -/
def Obligations.MemReadFollowsTheMap : Prop :=
  ∀ s : State,
    (∀ i : Fin 33, memRead (BitVec.ofNat 8 i.val) s = s.ibuf[i.val]) ∧
    (∀ i : Fin 33, memRead (BitVec.ofNat 8 (0x40 + i.val)) s = s.obuf[i.val]) ∧
    (∀ (r : Fin 4) (b : Fin 3) (k : Fin 8),
      (memRead (BitVec.ofNat 8 (0x80 + 3 * r.val + b.val)) s).getLsbD k.val = s.frame[r.val].getLsbD (8 * b.val + k.val)) ∧
    memRead 0x90 s = 0b00#2 ++ BitVec.ofBool s.sdTvalid ++ sdStep s ++ BitVec.ofBool (sdArmed s) ∧
    (∀ i : Fin 20, memRead (BitVec.ofNat 8 (0xA0 + i.val)) s = s.sdBuf[i.val]) ∧
    (∀ i : Fin 21, memRead (BitVec.ofNat 8 (0xC0 + i.val)) s = s.sdText[i.val]) ∧
    memRead 0xE0 s = 0b000000#6 ++ BitVec.ofBool s.sdSkip ++ BitVec.ofBool s.demuxNib ∧
    (∀ i : Fin 7, memRead (BitVec.ofNat 8 (0xE8 + i.val)) s = s.syncpat[i.val]) ∧
    memRead 0xF0 s = s.status ∧
    memRead 0xFF s = 0x00 ∧
    ∀ a : Byte, IsUnmapped a.toNat → memRead a s = 0x00

/-- What a host write does at every writable address, `MemWrite` of 20_memory.md §1: one byte of IBUF or SYNCPAT, the
two bits of CFG, or a command; nothing else changes. -/
def Obligations.HostWriteFollowsTheMap : Prop :=
  ∀ (s : State) (v : Byte),
    (∀ i : Fin 33, hostWrite (BitVec.ofNat 8 i.val) v s = .next { s with ibuf := s.ibuf.set i.val v }) ∧
    (∀ i : Fin 7, hostWrite (BitVec.ofNat 8 (0xE8 + i.val)) v s = .next { s with syncpat := s.syncpat.set i.val v }) ∧
    hostWrite 0xE0 v s = .next { s with demuxNib := v.getLsbD 0, sdSkip := v.getLsbD 1 } ∧
    hostWrite 0xFF v s = execute v s

/-- R63: unmapped addresses read 0x00 and ignore writes; read-only registers ignore writes. -/
def Obligations.UnmappedAndReadOnlyIgnoreWrites : Prop :=
  ∀ (a v : Byte) (s : State),
    (IsUnmapped a.toNat → memRead a s = 0x00 ∧ hostWrite a v s = .next s) ∧
    (IsReadOnly a.toNat → hostWrite a v s = .next s)

/-- Reading back after a host write to IBUF or SYNCPAT gives the byte written there and leaves every other address as
it was (20_memory.md §5). -/
def Obligations.ReadAfterWriteGivesTheByte : Prop :=
  ∀ (a b v : Byte) (s : State), (a.toNat ≤ 0x20 ∨ (0xE8 ≤ a.toNat ∧ a.toNat ≤ 0xEE)) →
    ∃ t, hostWrite a v s = .next t ∧ memRead b t = if b = a then v else memRead b s

/-- R40: CFG stores bits 1:0 of a host write and reads 0 in bits 7:2 in every state; its reset is 0x00 and no command
writes it. -/
def Obligations.CfgStoresTwoBits : Prop :=
  (∀ (s : State) (v : Byte), ∃ t, hostWrite 0xE0 v s = .next t ∧ t = { s with demuxNib := t.demuxNib, sdSkip := t.sdSkip } ∧
    memRead 0xE0 t = v &&& 0x03 ∧ t.demuxNib = v.getLsbD 0 ∧ t.sdSkip = v.getLsbD 1) ∧
  (∀ s : State, memRead 0xE0 s &&& 0xFC = 0) ∧
  memRead 0xE0 State.reset = 0x00 ∧
  (∀ (w : Byte) (s : State), ∃ t, execute w s = .next t ∧ memRead 0xE0 t = memRead 0xE0 s)

/-- R54: the reset value of every register. SYNCPAT's is the OPEN parameter (log entry 1). -/
def Obligations.ResetValues : Prop :=
  (∀ i : Fin 33, State.reset.ibuf[i.val] = 0x00) ∧ (∀ i : Fin 33, State.reset.obuf[i.val] = 0x00) ∧
  (∀ i : Fin 20, State.reset.sdBuf[i.val] = 0x00) ∧ (∀ i : Fin 21, State.reset.sdText[i.val] = 0x00) ∧
  (∀ (r : Fin 4) (c : Fin 24), cell State.reset.frame r c = false) ∧
  sdArmed State.reset = false ∧ sdStep State.reset = 0 ∧ State.reset.sdTvalid = false ∧
  memRead 0x90 State.reset = 0x00 ∧ State.reset.demuxNib = false ∧ State.reset.sdSkip = false ∧
  memRead 0xE0 State.reset = 0x00 ∧ State.reset.status = 0x00 ∧
  (∀ i : Fin 7, State.reset.syncpat[i.val] = Config.sync7Reset i)

/-- The reset event gives every register its reset value from any state, with no trace in STATUS
(70_reset_and_hazards.md §1). That the host's own record and its later inputs stay is the model's choice
(log entry 3). -/
def Obligations.ResetEventRestoresResetState : Prop :=
  ∀ (s : State) (rest : List Input), s.pending = .reset :: rest →
    step s = .next { State.reset with pending := rest, observed := s.observed } ∧
    ∀ a, memRead a { State.reset with pending := rest, observed := s.observed } = memRead a State.reset

/-! ### Every command -/

/-- No command writes IBUF, CFG or SYNCPAT, and none touches the host's side of the bus (10_state.md §2, §3, §5). -/
def Obligations.CommandsKeepOperandRegisters : Prop :=
  ∀ (w : Byte) (s : State), ∃ t, execute w s = .next t ∧ t.ibuf = s.ibuf ∧ t.demuxNib = s.demuxNib ∧
    t.sdSkip = s.sdSkip ∧ t.syncpat = s.syncpat ∧ t.pending = s.pending ∧ t.observed = s.observed

/-- What a command may change, byte by byte of the register space: the Writes column of the opcode map, and STATUS
alone for an illegal word (30_encoding.md §2, §3). -/
def Obligations.CommandsWriteOnlyTheirColumn : Prop :=
  ∀ (w : Byte) (s : State), ∃ t, execute w s = .next t ∧
    ∀ a : Byte, memRead a t ≠ memRead a s →
      match decode w with
      | .ok i => mayWrite i a.toNat
      | .error _ => a = 0xF0

/-- STATUS after any command, legal or illegal: LAST_OP is `w[3:0]`, ERR is 1 exactly for an illegal word, and SD_EV is
NONE for every command but SD_FRAME and never NONE for that one (10_state.md R45, R46, §5). -/
def Obligations.StatusReportsEveryCommand : Prop :=
  ∀ (w : Byte) (s : State), ∃ t, execute w s = .next t ∧ statusLastOp t.status = w.extractLsb' 0 4 ∧
    (statusErr t.status = true ↔ IsIllegalWord w) ∧ (statusSdEv t.status = 0 ↔ w ≠ 0x0A)

/-- Results are functions of the operands, never of history. OBUF's earlier content does not matter to a command that
produces bytes, and any other command keeps it and computes nothing from it; the same of FRAME and the two deinterleaves.
SD_TEXT's earlier content matters to no command: it stays as it was, or an emission replaces it. STATUS's earlier content
matters to no command, legal or illegal (10_state.md §3, §4, §5). -/
def Obligations.ResultsForgetEarlierResults : Prop :=
  (∀ (i : Instr) (s : State) (v : Vector Byte 33), producesBytes i = true → exec i { s with obuf := v } = exec i s) ∧
  (∀ (i : Instr) (s : State) (v : Vector Byte 33), producesBytes i = false →
    ∃ t, exec i s = .next t ∧ exec i { s with obuf := v } = .next { t with obuf := v }) ∧
  (∀ (s : State) (f : Vector Row 4), exec .deintA { s with frame := f } = exec .deintA s ∧
    exec .deintB { s with frame := f } = exec .deintB s) ∧
  (∀ (i : Instr) (s : State) (f : Vector Row 4), i ≠ .deintA → i ≠ .deintB →
    ∃ t, exec i s = .next t ∧ exec i { s with frame := f } = .next { t with frame := f }) ∧
  (∀ (w : Byte) (s : State) (x : Vector Byte 21), ∃ t, execute w s = .next t ∧
    execute w { s with sdText := x } = .next { t with sdText := if statusSdEv t.status = 3 then t.sdText else x }) ∧
  (∀ (w : Byte) (s : State) (b : Byte), execute w { s with status := b } = execute w s)

/-- A command's effect does not depend on the IBUF bytes it does not read: with any other bytes there, the next state is
the same but for IBUF itself (10_state.md §3, 30_encoding.md §2). -/
def Obligations.UnreadOperandBytesHaveNoEffect : Prop :=
  ∀ (i : Instr) (s : State) (v : Vector Byte 33), (∀ k : Fin 33, k.val < readsBelow i → v[k.val] = s.ibuf[k.val]) →
    ∃ t, exec i s = .next t ∧ exec i { s with ibuf := v } = .next { t with ibuf := v }

/-- The nine commands outside the assembler neither read nor write its registers: any other values there give the same
next state but for those registers (45_slowdata.md §3, 46_control.md). -/
def Obligations.OtherCommandsIgnoreTheAssembler : Prop :=
  ∀ (i : Instr) (s : State) (c : SdCtl) (b : Vector Byte 20) (x : Vector Byte 21) (tv : Bool),
    i ≠ .sdReset → i ≠ .sdFrame →
      ∃ t, exec i s = .next t ∧ t.sdCtl = s.sdCtl ∧ t.sdBuf = s.sdBuf ∧ t.sdText = s.sdText ∧ t.sdTvalid = s.sdTvalid ∧
        exec i { s with sdCtl := c, sdBuf := b, sdText := x, sdTvalid := tv } =
          .next { t with sdCtl := c, sdBuf := b, sdText := x, sdTvalid := tv }

/-- R231: NOP is word 0x00 and changes only STATUS, to 0x00. -/
def Obligations.NopClearsStatusOnly : Prop :=
  ∀ s : State, decode 0x00 = .ok .nop ∧ exec .nop s = .next { s with status := 0x00 }

/-! ### Golay (40_golay.md) -/

/-- `R(d)` is the remainder of `d(x)·x^11` by the generator 0xC75: it has degree below 11 and differs from `d(x)·x^11`
by a multiple of the generator (40_golay.md §1). -/
def Obligations.GolayRemainderDivides : Prop :=
  ∀ d : Byte, (golayRemainder 0xC75 d).getLsbD 11 = false ∧
    ∃ q : Byte, clmul q 0xC75 ^^^ (golayRemainder 0xC75 d).setWidth 20 = d.setWidth 20 <<< 11

/-- R103: the table and the rule that generates it agree entry for entry. -/
def Obligations.GolayTableAgreesWithRule : Prop := ∀ d : Byte, golayParity defaultTables d = golayRule 0xC75 d

/-- The parity is linear over GF(2), with the basis of 40_golay.md R101. -/
def Obligations.GolayParityIsLinear : Prop :=
  (∀ a b : Byte, golayParity defaultTables (a ^^^ b) = golayParity defaultTables a ^^^ golayParity defaultTables b) ∧
  golayParity defaultTables 0x01 = 0x8EB ∧ golayParity defaultTables 0x02 = 0x93E ∧
  golayParity defaultTables 0x04 = 0xA97 ∧ golayParity defaultTables 0x08 = 0xDC6 ∧
  golayParity defaultTables 0x10 = 0x367 ∧ golayParity defaultTables 0x20 = 0x6CD ∧
  golayParity defaultTables 0x40 = 0xD99 ∧ golayParity defaultTables 0x80 = 0x3DA

/-- Any two of the 256 codewords differ in at least 8 bits (40_golay.md §1). -/
def Obligations.GolayMinimumDistanceEight : Prop :=
  ∀ a b : Byte, a ≠ b → 8 ≤ popcount (golayCodeword defaultTables a ^^^ golayCodeword defaultTables b)

/-- R104: GOLAY_ENC, for every state: the three codeword bytes by the rule of R101, 30 zero bytes, STATUS 0x01, all
else unchanged. -/
def Obligations.GolayEncResult : Prop :=
  ∀ s : State, decode 0x01 = .ok .golayEnc ∧
    ∃ t, exec .golayEnc s = .next t ∧ t = { s with obuf := t.obuf, status := 0x01 } ∧
      t.obuf[0] = s.ibuf[0] ∧
      t.obuf[1] = (golayRule 0xC75 s.ibuf[0]).extractLsb' 4 8 ∧
      t.obuf[2] = (golayRule 0xC75 s.ibuf[0]).extractLsb' 0 4 ++ 0b0000#4 ∧
      (∀ i : Fin 33, 3 ≤ i.val → t.obuf[i.val] = 0x00) ∧
      (s.ibuf[0] = 0x11 → t.obuf[1] = 0xB8 ∧ t.obuf[2] = 0xC0)

/-! ### BPTC (41_bptc.md) -/

/-- BPTC_ENC, for every state, in the spec's own terms: there are a matrix `m` and a transmitted array `tr` that satisfy
the data placement (R121), the zero bits (R122), the row code (R123) by every equation of R124, every column equation of
R125, the interleave (R127) and the packing (R128); STATUS is 0x02, all else unchanged. -/
def Obligations.BptcEncResult : Prop :=
  ∀ s : State, decode 0x02 = .ok .bptcEnc ∧
    ∃ (t : State) (m tr : BitVec 196), exec .bptcEnc s = .next t ∧ t = { s with obuf := t.obuf, status := 0x02 } ∧
      (∀ k : Fin 96, m.getLsbD (slotOf k.val) = msbStream s.ibuf k.val) ∧
      (∀ a : Fin 4, m.getLsbD a.val = false) ∧
      (∀ r : Fin 9, IsHamming15 fun c => m.getLsbD (1 + 15 * r.val + c)) ∧
      (∀ c : Fin 15, IsHamming13 fun r => m.getLsbD (1 + 15 * r + c.val)) ∧
      (∀ a : Fin 196, tr.getLsbD (a.val * 181 % 196) = m.getLsbD a.val) ∧
      (∀ n : Fin 264, carrierBitOf t.obuf n.val =
        if n.val < 98 then tr.getLsbD n.val else if n.val < 166 then false else tr.getLsbD (n.val - 68))

/-- R126: in the encoded matrix every column is a Hamming(13,9,3) codeword, and the column-parity rows 9-12 are
Hamming(15,11,3) codewords too. -/
def Obligations.BptcProductCode : Prop :=
  ∀ block : Vector Byte 12,
    (∀ c : Fin 15, IsHamming13 fun r => (bptcMatrix defaultTables block).getLsbD (1 + 15 * r + c.val)) ∧
    (∀ r : Fin 13, IsHamming15 fun c => (bptcMatrix defaultTables block).getLsbD (1 + 15 * r.val + c))

/-- BPTC_ENC is linear: the carrier of the exclusive-or of two blocks is the exclusive-or of their carriers, bytewise
(41_bptc.md §3). -/
def Obligations.BptcEncIsLinear : Prop :=
  ∀ a b c : State, (∀ i : Fin 12, c.ibuf[i.val] = a.ibuf[i.val] ^^^ b.ibuf[i.val]) →
    ∃ ta tb tc, exec .bptcEnc a = .next ta ∧ exec .bptcEnc b = .next tb ∧ exec .bptcEnc c = .next tc ∧
      ∀ i : Fin 33, tc.obuf[i.val] = ta.obuf[i.val] ^^^ tb.obuf[i.val]

/-- The product distance: a block that is not all zero sets at least 9 bits of the matrix (41_bptc.md §3,
95_test_vectors.md §1.2). -/
def Obligations.BptcMinimumWeightNine : Prop :=
  ∀ block : Vector Byte 12, (∃ i : Fin 12, block[i.val] ≠ 0x00) → 9 ≤ popcount (bptcMatrix defaultTables block)

/-! ### Reed-Solomon and link control (42_rs129.md) -/

/-- The first entries of EXP, and LOG inverts it on 0..254 (42_rs129.md §1). -/
def Obligations.ExpAndLogTables : Prop :=
  (List.range 10).map (gfExp 0x11D) = [0x01, 0x02, 0x04, 0x08, 0x10, 0x20, 0x40, 0x80, 0x1D, 0x3A] ∧
  gfExp 0x11D 255 = 0x01 ∧ ∀ i : Fin 255, gfLog 0x11D (gfExp 0x11D i.val) = i.val

/-- R141: the field product is 0 when a factor is 0 and `EXP[(LOG a + LOG b) mod 255]` otherwise; it is commutative,
associative and distributes over exclusive-or. -/
def Obligations.FieldProductFollowsExpAndLog : Prop :=
  (∀ a b : Byte, gmul 0x11D a b =
    if a = 0 ∨ b = 0 then 0 else gfExp 0x11D ((gfLog 0x11D a + gfLog 0x11D b) % 255)) ∧
  (∀ a b : Byte, gmul 0x11D a b = gmul 0x11D b a) ∧
  (∀ a b c : Byte, gmul 0x11D (gmul 0x11D a b) c = gmul 0x11D a (gmul 0x11D b c)) ∧
  (∀ a b c : Byte, gmul 0x11D a (b ^^^ c) = gmul 0x11D a b ^^^ gmul 0x11D a c) ∧
  gmul 0x11D 0x80 0x02 = 0x1D

/-- The parity bytes are the only three that make the twelve bytes a codeword: message and parity vanish at `α`, `α^2`
and `α^3` exactly when the parity is `RS(m)` (42_rs129.md §2). -/
def Obligations.RsParityIsTheOnlyCodeword : Prop :=
  ∀ (m : Vector Byte 9) (p : Parity),
    IsRsCodeword (m.toList ++ [p.r0, p.r1, p.r2]) ↔ rsParity defaultTables m = p

/-- RS_PARITY, for every state: OBUF[0..2] completes IBUF[0..8] to a codeword, OBUF[3..32] is zero, STATUS is 0x03, all
else unchanged (42_rs129.md §3). -/
def Obligations.RsParityResult : Prop :=
  ∀ s : State, decode 0x03 = .ok .rsParity ∧
    ∃ t, exec .rsParity s = .next t ∧ t = { s with obuf := t.obuf, status := 0x03 } ∧
      IsRsCodeword (s.ibuf.toList.take 9 ++ t.obuf.toList.take 3) ∧
      (∀ i : Fin 33, 3 ≤ i.val → t.obuf[i.val] = 0x00)

/-- RS_PARITY is linear (42_rs129.md §3). -/
def Obligations.RsParityIsLinear : Prop :=
  ∀ a b c : State, (∀ i : Fin 9, c.ibuf[i.val] = a.ibuf[i.val] ^^^ b.ibuf[i.val]) →
    ∃ ta tb tc, exec .rsParity a = .next ta ∧ exec .rsParity b = .next tb ∧ exec .rsParity c = .next tc ∧
      ∀ i : Fin 33, tc.obuf[i.val] = ta.obuf[i.val] ^^^ tb.obuf[i.val]

/-- LC_ENC, for every state: three zero bytes, the six identifier bytes as the host wrote them, and three bytes that,
unmasked by 0x96, complete the first nine to a codeword; OBUF[12..32] is zero, STATUS is 0x04, all else unchanged
(42_rs129.md §3). -/
def Obligations.LcEncResult : Prop :=
  ∀ s : State, decode 0x04 = .ok .lcEnc ∧
    ∃ t, exec .lcEnc s = .next t ∧ t = { s with obuf := t.obuf, status := 0x04 } ∧
      t.obuf[0] = 0x00 ∧ t.obuf[1] = 0x00 ∧ t.obuf[2] = 0x00 ∧
      (∀ i : Fin 6, t.obuf[3 + i.val] = s.ibuf[i.val]) ∧
      IsRsCodeword (t.obuf.toList.take 9 ++ [t.obuf[9] ^^^ 0x96, t.obuf[10] ^^^ 0x96, t.obuf[11] ^^^ 0x96]) ∧
      (∀ i : Fin 33, 12 ≤ i.val → t.obuf[i.val] = 0x00)

/-! ### The header builder (43_header.md) -/

/-- R165: where every bit of HDR_BUILD's carrier comes from. The BPTC bits are those of BPTC_ENC on the OBUF of LC_ENC for
the same identifiers; the slot type is the Golay codeword of IBUF[6]; the middle 48 bits are SYNCPAT's. STATUS is 0x05,
all else unchanged. -/
def Obligations.HdrBuildProvenance : Prop :=
  ∀ s : State, decode 0x05 = .ok .hdrBuild ∧
    ∃ lc t, exec .lcEnc s = .next lc ∧ exec .hdrBuild s = .next t ∧ t = { s with obuf := t.obuf, status := 0x05 } ∧
      ∀ v : Vector Byte 33, (∀ i : Fin 12, v[i.val] = lc.obuf[i.val]) →
        ∃ b, exec .bptcEnc { s with ibuf := v } = .next b ∧
          ∀ n : Fin 264, carrierBitOf t.obuf n.val =
            if n.val < 98 then carrierBitOf b.obuf n.val
            else if n.val < 108 then (golayCodeword defaultTables s.ibuf[6]).getLsbD (19 - (n.val - 98))
            else if n.val < 156 then msbStream s.syncpat (n.val - 104)
            else if n.val < 166 then (golayCodeword defaultTables s.ibuf[6]).getLsbD (9 - (n.val - 156))
            else carrierBitOf b.obuf n.val

/-- The header round trip (95_test_vectors.md §1.2): for one SYNCPAT the carrier determines the identifiers and the
slot type. -/
def Obligations.HdrBuildIsInjective : Prop :=
  ∀ s u t t' : State, s.syncpat = u.syncpat → exec .hdrBuild s = .next t → exec .hdrBuild u = .next t' →
    t.obuf = t'.obuf → ∀ i : Fin 7, s.ibuf[i.val] = u.ibuf[i.val]

/-! ### Deinterleavers and demultiplexer (44_deinterleave.md) -/

/-- DEINT_A, for every state: stream bit `k`, LSB-first, is in the cell Family A names for it, every cell it names for no
bit is 0, STATUS is 0x06, all else unchanged (44_deinterleave.md §2). -/
def Obligations.DeintAResult : Prop :=
  ∀ s : State, decode 0x06 = .ok .deintA ∧
    ∃ t, exec .deintA s = .next t ∧ t = { s with frame := t.frame, status := 0x06 } ∧
      (∀ k : Fin 72, cell t.frame defaultTables.tabAW[k.val] defaultTables.tabAX[k.val] =
        (s.ibuf.getD (k.val / 8) 0).getLsbD (k.val % 8)) ∧
      (∀ (r : Fin 4) (c : Fin 24),
        (∀ k : Fin 72, (defaultTables.tabAW[k.val], defaultTables.tabAX[k.val]) ≠ (r, c)) → cell t.frame r c = false)

/-- DEINT_B, for every state: the bits of dibit `k`, MSB-first, are in the two cells Family B names for it, every other
cell is 0, STATUS is 0x07, all else unchanged (44_deinterleave.md §3). -/
def Obligations.DeintBResult : Prop :=
  ∀ s : State, decode 0x07 = .ok .deintB ∧
    ∃ t, exec .deintB s = .next t ∧ t = { s with frame := t.frame, status := 0x07 } ∧
      (∀ k : Fin 36,
        cell t.frame defaultTables.tabBW[k.val] defaultTables.tabBX[k.val] =
          (s.ibuf.getD (k.val / 4) 0).getLsbD (7 - 2 * (k.val % 4)) ∧
        cell t.frame defaultTables.tabBY[k.val] defaultTables.tabBZ[k.val] =
          (s.ibuf.getD (k.val / 4) 0).getLsbD (6 - 2 * (k.val % 4))) ∧
      (∀ (r : Fin 4) (c : Fin 24),
        (∀ k : Fin 36, (defaultTables.tabBW[k.val], defaultTables.tabBX[k.val]) ≠ (r, c) ∧
          (defaultTables.tabBY[k.val], defaultTables.tabBZ[k.val]) ≠ (r, c)) → cell t.frame r c = false)

/-- R189: with ANY tables that name no cell twice, reading the cells back gives the input bits, so each deinterleaver is
injective. -/
def Obligations.DeinterleaversAreInvertible : Prop :=
  (∀ (T : Tables) (x : Vector Byte 9), T.cellsA.Nodup →
    ∀ k : Fin 72, cell (deinterleaveA T x) T.tabAW[k.val] T.tabAX[k.val] = lsbStream x k.val) ∧
  (∀ (T : Tables) (x : Vector Byte 9), T.cellsB.Nodup →
    ∀ k : Fin 36, cell (deinterleaveB T x) T.tabBW[k.val] T.tabBX[k.val] = dibitHigh x k.val ∧
      cell (deinterleaveB T x) T.tabBY[k.val] T.tabBZ[k.val] = dibitLow x k.val) ∧
  (∀ (T : Tables) (x y : Vector Byte 9), T.cellsA.Nodup → deinterleaveA T x = deinterleaveA T y → x = y) ∧
  (∀ (T : Tables) (x y : Vector Byte 9), T.cellsB.Nodup → deinterleaveB T x = deinterleaveB T y → x = y)

/-- The default configuration is well-formed: neither deinterleave table set names a cell twice, the BPTC slots are 96
distinct data positions, the Hamming equations have distinct parity patterns of weight 2 or more, the interleave is a
bijection of the 196 positions, the field's polynomial is primitive, the Reed-Solomon generator is the one it gives, the
Golay generator has degree 11, and the Golay table is the one it gives (40_golay.md §1, 41_bptc.md §1, §2, 42_rs129.md §1,
44_deinterleave.md §2, §3, 93_implementation_defined.md); that a configured table must keep these is, but for the
deinterleave cells, the model's choice (log entry 15). Both default deinterleave table sets name exactly the same 72
cells: row 0, row 1 columns 0-22, row 2 columns 0-10 and row 3 columns 0-13 (44_deinterleave.md §1). -/
def Obligations.DefaultTablesNameTheSameCells : Prop :=
  defaultTables.wf = true ∧
  ∀ (r : Fin 4) (c : Fin 24),
    ((r, c) ∈ defaultTables.cellsA ↔ c.val < [24, 23, 11, 14].getD r.val 0) ∧
    ((r, c) ∈ defaultTables.cellsB ↔ c.val < [24, 23, 11, 14].getD r.val 0)

/-- R188: DMR_DEMUX, for every state and both settings of CFG.DEMUX_NIB. -/
def Obligations.DmrDemuxResult : Prop :=
  ∀ s : State, decode 0x08 = .ok .dmrDemux ∧
    ∃ t, exec .dmrDemux s = .next t ∧ t = { s with obuf := t.obuf, status := 0x08 } ∧
      (∀ i : Fin 13, t.obuf[i.val] = s.ibuf[i.val]) ∧
      t.obuf[13].extractLsb' 4 4 = s.ibuf[13].extractLsb' 4 4 ∧
      (s.demuxNib = false → t.obuf[13].extractLsb' 0 4 = s.ibuf[19].extractLsb' 4 4) ∧
      (s.demuxNib = true → t.obuf[13].extractLsb' 0 4 = s.ibuf[19].extractLsb' 0 4) ∧
      (∀ i : Fin 13, t.obuf[14 + i.val] = s.ibuf[20 + i.val]) ∧
      (∀ i : Fin 33, 27 ≤ i.val → t.obuf[i.val] = 0x00) ∧
      ((∀ i : Fin 33, s.ibuf[i.val] = BitVec.ofNat 8 i.val) →
        t.obuf[13] = if s.demuxNib then 0x03 else 0x01)

/-! ### The slow-data assembler (45_slowdata.md) -/

/-- R211: SD_RESET, for every state: disarmed, SD_BUF zero, SD_TVALID 0, STATUS 0x09; SD_TEXT and all else unchanged. In
the reset state of the assembler it changes STATUS alone. -/
def Obligations.SdResetResult : Prop :=
  ∀ s : State, decode 0x09 = .ok .sdReset ∧
    ∃ t, exec .sdReset s = .next t ∧
      t = { s with sdCtl := t.sdCtl, sdBuf := t.sdBuf, sdTvalid := false, status := 0x09 } ∧
      sdArmed t = false ∧ sdStep t = 0 ∧ (∀ i : Fin 20, t.sdBuf[i.val] = 0x00) ∧ memRead 0x90 t = 0x00 ∧
      (sdArmed s = false → s.sdTvalid = false → (∀ i : Fin 20, s.sdBuf[i.val] = 0x00) → t = { s with status := 0x09 })

/-- R212: SD_FRAME, the transition table complete over all states and frames. Every case is an implication; together
they cover every state. All other registers are unchanged. -/
def Obligations.SdFrameTransitionTable : Prop :=
  ∀ s : State, decode 0x0A = .ok .sdFrame ∧
    ∃ t, exec .sdFrame s = .next t ∧
      t = { s with sdCtl := t.sdCtl, sdBuf := t.sdBuf, sdText := t.sdText, sdTvalid := t.sdTvalid, status := t.status } ∧
      statusLastOp t.status = 0xA ∧ statusErr t.status = false ∧
      -- any state, sync
      (HoldsSyncFrame s → sdArmed t = true ∧ sdStep t = 1 ∧ (∀ i : Fin 20, t.sdBuf[i.val] = 0x00) ∧
        t.sdText = s.sdText ∧ t.sdTvalid = s.sdTvalid ∧ statusSdEv t.status = 1) ∧
      -- Disarmed, not sync
      (¬ HoldsSyncFrame s → sdArmed s = false → t = { s with status := t.status } ∧ statusSdEv t.status = 7) ∧
      -- Armed(n), seq ≠ n, SD_SKIP = 0
      (¬ HoldsSyncFrame s → sdArmed s = true → s.ibuf[0].toNat ≠ (sdStep s).toNat → s.sdSkip = false →
        t = { s with status := t.status } ∧ statusSdEv t.status = 5) ∧
      -- Armed(n), seq ≠ n, SD_SKIP = 1
      (¬ HoldsSyncFrame s → sdArmed s = true → s.ibuf[0].toNat ≠ (sdStep s).toNat → s.sdSkip = true →
        sdArmed t = false ∧ sdStep t = 0 ∧ (∀ i : Fin 20, t.sdBuf[i.val] = 0x00) ∧
        t.sdText = s.sdText ∧ t.sdTvalid = s.sdTvalid ∧ statusSdEv t.status = 6) ∧
      -- Armed(n), seq = n, not m
      (HoldsExpectedStep s → ¬ MarkerHolds (sdStep s).toNat s →
        sdArmed t = false ∧ sdStep t = 0 ∧ (∀ i : Fin 20, t.sdBuf[i.val] = 0x00) ∧
        t.sdText = s.sdText ∧ t.sdTvalid = s.sdTvalid ∧ statusSdEv t.status = 4) ∧
      -- Armed(n), n in 1..7, seq = n, m
      (HoldsExpectedStep s → MarkerHolds (sdStep s).toNat s → (sdStep s).toNat ≤ 7 →
        sdArmed t = true ∧ (sdStep t).toNat = (sdStep s).toNat + 1 ∧
        (∀ i : Fin 20, t.sdBuf[i.val] =
          if baseOf (sdStep s).toNat ≤ i.val ∧
              i.val < baseOf (sdStep s).toNat + (recoveredOf (sdStep s).toNat s).length then
            (recoveredOf (sdStep s).toNat s).getD (i.val - baseOf (sdStep s).toNat) 0
          else s.sdBuf[i.val]) ∧
        t.sdText = s.sdText ∧ t.sdTvalid = s.sdTvalid ∧ statusSdEv t.status = 2) ∧
      -- Armed(8), seq = 8
      (HoldsExpectedStep s → sdStep s = 8 →
        sdArmed t = false ∧ sdStep t = 0 ∧ (∀ i : Fin 20, t.sdBuf[i.val] = 0x00) ∧
        (∀ i : Fin 17, t.sdText[i.val] = s.sdBuf[i.val]) ∧
        t.sdText[17] = frameU0 s ∧ t.sdText[18] = frameU1 s ∧ t.sdText[19] = frameU2 s ∧ t.sdText[20] = 0x00 ∧
        t.sdTvalid = true ∧ statusSdEv t.status = 3)

/-- SD_TEXT changes only on an emission, at step 8 of an armed assembler, or at a reset: no partial text is ever emitted
(45_slowdata.md §3, 10_state.md §4). -/
def Obligations.TextChangesOnlyOnEmit : Prop :=
  ∀ s t : State, step s = .next t → t.sdText ≠ s.sdText →
    Resets s ∨ (Issues s 0x0A ∧ sdStep s = 8 ∧ s.ibuf[0] = 0x08 ∧ statusSdEv t.status = 3)

/-- R39: SD_TVALID is set only by an emission and cleared only by SD_RESET and reset. -/
def Obligations.TvalidSetByEmitClearedByReset : Prop :=
  (∀ s t : State, step s = .next t → s.sdTvalid = false → t.sdTvalid = true → Issues s 0x0A ∧ statusSdEv t.status = 3) ∧
  (∀ s t : State, step s = .next t → s.sdTvalid = true → t.sdTvalid = false → Resets s ∨ Issues s 0x09) ∧
  (∀ s t : State, step s = .next t → Issues s 0x0A → statusSdEv t.status = 3 → t.sdTvalid = true) ∧
  (∀ s t : State, step s = .next t → Resets s ∨ Issues s 0x09 → t.sdTvalid = false)

/-- A disarmed assembler stays disarmed until SD_FRAME is issued on a sync frame (45_slowdata.md §3). -/
def Obligations.DisarmedUntilSync : Prop :=
  ∀ s t : State, step s = .next t → sdArmed s = false → sdArmed t = true → Issues s 0x0A ∧ HoldsSyncFrame s

/-- With SD_SKIP = 0 an armed assembler leaves Armed(n) only by a sync frame, a frame with `seq = n`, SD_RESET, or a
block reset (45_slowdata.md §3). -/
def Obligations.ArmedLeavesOnlyBy : Prop :=
  ∀ s t : State, step s = .next t → sdArmed s = true → s.sdSkip = false → t.sdCtl ≠ s.sdCtl →
    Resets s ∨ Issues s 0x09 ∨ (Issues s 0x0A ∧ (HoldsSyncFrame s ∨ s.ibuf[0].toNat = (sdStep s).toNat))

/-- The canonical sequence emits its text exactly, whatever the 20 bytes and whatever the state before it
(95_test_vectors.md §1.2, 45_slowdata.md §3). -/
def Obligations.CanonicalFramesEmitTheText : Prop :=
  ∀ (x : Vector Byte 20) (s : State), ∃ t,
    presentVoiceFrames (syncFrame :: textFrames x 0x40 0x41 0x42 0x43) s = .next t ∧
    (∀ i : Fin 20, t.sdText[i.val] = x[i.val]) ∧ t.sdText[20] = 0x00 ∧ t.sdTvalid = true ∧
    sdArmed t = false ∧ sdStep t = 0 ∧ (∀ i : Fin 20, t.sdBuf[i.val] = 0x00) ∧ t.status = 0x6A

/-- Fail closed: with any marker wrong the same sequence emits nothing and leaves the assembler disarmed
(95_test_vectors.md §1.2, 45_slowdata.md §3). -/
def Obligations.WrongMarkerFailsClosed : Prop :=
  ∀ (x : Vector Byte 20) (m1 m3 m5 m7 : Byte) (s : State),
    (m1 ≠ 0x40 ∨ m3 ≠ 0x41 ∨ m5 ≠ 0x42 ∨ m7 ≠ 0x43) →
      ∃ t, presentVoiceFrames (syncFrame :: textFrames x m1 m3 m5 m7) s = .next t ∧
        t.sdText = s.sdText ∧ t.sdTvalid = s.sdTvalid ∧ sdArmed t = false ∧ sdStep t = 0 ∧
        (∀ i : Fin 20, t.sdBuf[i.val] = 0x00)

/-- Every emission, however other accesses are mixed in: it follows a sync and exactly the accepted steps 1 to 8, in
order, with no disarm between, and the text is their recovered bytes followed by 0x00 (45_slowdata.md §3). -/
def Obligations.EmittedTextIsTheAcceptedBytes : Prop :=
  ∀ (s t : State) (log : StepLog), Recorded s log → step s = .next t → Issues s 0x0A → statusSdEv t.status = 3 →
    ∃ l, log = some l ∧ (l ++ [((sdStep s).toNat, recoveredOf (sdStep s).toNat s)]).map Prod.fst = [1, 2, 3, 4, 5, 6, 7, 8] ∧
      t.sdText.toList = (l ++ [((sdStep s).toNat, recoveredOf (sdStep s).toNat s)]).flatMap Prod.snd ++ [0x00]

/-- The assembler's invariant holds at reset (10_state.md §4). -/
def Obligations.ResetSatisfiesAssemblerInvariant : Prop := AssemblerInvariant State.reset

/-- R50: the assembler's invariant holds at reset, and every step keeps it, whatever the host does, with the default
tables and with any others. -/
def Obligations.StepKeepsAssemblerInvariant : Prop :=
  AssemblerInvariant State.reset ∧
  (∀ s t : State, AssemblerInvariant s → step s = .next t → AssemblerInvariant t) ∧
  ∀ (T : Tables) (s t : State), AssemblerInvariant s → stepWith T s = .next t → AssemblerInvariant t

/-! ### Host programs (30_encoding.md §5) -/

/-- `ldi` loads its bytes into IBUF from OFF on and changes nothing else, for every line inside IBUF. -/
def Obligations.LdiLoadsIbuf : Prop :=
  ∀ (off : Nat) (bytes : List Byte) (s : State), (HostLine.ldi off bytes).wf = true →
    ∃ t, runLine (.ldi off bytes) s = .next t ∧ t = { s with ibuf := t.ibuf } ∧
      ∀ k : Fin 33, t.ibuf[k.val] =
        if off ≤ k.val ∧ k.val < off + bytes.length then bytes.getD (k.val - off) 0 else s.ibuf[k.val]

/-- `movob` copies OBUF bytes into IBUF through the host, reads them on the way, and changes nothing else, for every
line inside the two buffers. That bound is the model's reading (log entry 7), and that the bytes read are appended to
`observed` is the model's choice (log entry 3). -/
def Obligations.MovobCopiesObufIntoIbuf : Prop :=
  ∀ (i j n : Nat) (s : State), (HostLine.movob i j n).wf = true →
    ∃ t, runLine (.movob i j n) s = .next t ∧ t = { s with ibuf := t.ibuf, observed := t.observed } ∧
      (∀ k : Fin 33, t.ibuf[k.val] =
        if j ≤ k.val ∧ k.val < j + n then s.obuf.getD (i + (k.val - j)) 0 else s.ibuf[k.val]) ∧
      t.observed = s.observed ++ (List.range n).map fun k => s.obuf.getD (i + k) 0

/-! ### The configuration (00_scope.md §4) -/

/-- Which tables each command depends on, in a block built with any: two configurations that agree on the tables listed
give the same outcome from every state, and NOP, DMR_DEMUX and SD_RESET depend on none. The tables are those each
command's own rule reads (40_golay.md §1, §2, 41_bptc.md §3, 42_rs129.md §3, 43_header.md §1, 44_deinterleave.md §2 to
§4, 45_slowdata.md §2, 46_control.md). For tables that are not well-formed the outcome is the model's choice (log entries
4, 12, 13 and 14). -/
def Obligations.CommandsReadOnlyTheirTables : Prop :=
  ∀ (T U : Tables) (s : State),
    (T.golayP = U.golayP → execWith T .golayEnc s = execWith U .golayEnc s) ∧
    (T.bptcSlots = U.bptcSlots → T.hamRow = U.hamRow → T.hamCol = U.hamCol → T.bptcIlv = U.bptcIlv →
      T.bptcIlvMod = U.bptcIlvMod → execWith T .bptcEnc s = execWith U .bptcEnc s) ∧
    (T.gfPrim = U.gfPrim → T.rsGen = U.rsGen →
      execWith T .rsParity s = execWith U .rsParity s ∧ execWith T .lcEnc s = execWith U .lcEnc s) ∧
    (T.golayP = U.golayP → T.bptcSlots = U.bptcSlots → T.hamRow = U.hamRow → T.hamCol = U.hamCol →
      T.bptcIlv = U.bptcIlv → T.bptcIlvMod = U.bptcIlvMod → T.gfPrim = U.gfPrim → T.rsGen = U.rsGen →
      execWith T .hdrBuild s = execWith U .hdrBuild s) ∧
    (T.tabAW = U.tabAW → T.tabAX = U.tabAX → execWith T .deintA s = execWith U .deintA s) ∧
    (T.tabBW = U.tabBW → T.tabBX = U.tabBX → T.tabBY = U.tabBY → T.tabBZ = U.tabBZ →
      execWith T .deintB s = execWith U .deintB s) ∧
    (T.sdMarker = U.sdMarker → execWith T .sdFrame s = execWith U .sdFrame s) ∧
    execWith T .nop s = execWith U .nop s ∧ execWith T .dmrDemux s = execWith U .dmrDemux s ∧
    execWith T .sdReset s = execWith U .sdReset s

/-! ### The assembler and the observer's record, step by step (45_slowdata.md §3) -/

/-- From a reset, with nothing recorded, the record and the assembler agree (45_slowdata.md §3, 10_state.md §7). -/
def Obligations.ResetSatisfiesTheRecordInvariant : Prop := RecordInvariant State.reset none

/-- Every step keeps the record and the assembler in agreement, whatever the host does and whatever state it starts from:
armed with SD_STEP = n, the steps accepted since the last sync are exactly 1 to n - 1 and their recovered bytes are SD_BUF's
below `BASE[n]` (45_slowdata.md §1, §3). -/
def Obligations.StepKeepsTheRecordInvariant : Prop :=
  ∀ (s t : State) (log : StepLog), RecordInvariant s log → step s = .next t → RecordInvariant t (nextLog s t log)
end

