-- ==== Sys2Proof/Laws/State.lean ====
section
/-! SUPPORT. The fields of State after each named update: one lemma per field per update, true by rfl. -/

namespace Sys2Proof.Machine

section
variable (s : State) (v : Vector Byte 33)
@[simp] theorem State.withIbuf_ibuf : (s.withIbuf v).ibuf = v := rfl
@[simp] theorem State.withIbuf_obuf : (s.withIbuf v).obuf = s.obuf := rfl
@[simp] theorem State.withIbuf_frame : (s.withIbuf v).frame = s.frame := rfl
@[simp] theorem State.withIbuf_sdCtl : (s.withIbuf v).sdCtl = s.sdCtl := rfl
@[simp] theorem State.withIbuf_sdBuf : (s.withIbuf v).sdBuf = s.sdBuf := rfl
@[simp] theorem State.withIbuf_sdText : (s.withIbuf v).sdText = s.sdText := rfl
@[simp] theorem State.withIbuf_sdTvalid : (s.withIbuf v).sdTvalid = s.sdTvalid := rfl
@[simp] theorem State.withIbuf_demuxNib : (s.withIbuf v).demuxNib = s.demuxNib := rfl
@[simp] theorem State.withIbuf_sdSkip : (s.withIbuf v).sdSkip = s.sdSkip := rfl
@[simp] theorem State.withIbuf_syncpat : (s.withIbuf v).syncpat = s.syncpat := rfl
@[simp] theorem State.withIbuf_status : (s.withIbuf v).status = s.status := rfl
@[simp] theorem State.withIbuf_pending : (s.withIbuf v).pending = s.pending := rfl
@[simp] theorem State.withIbuf_observed : (s.withIbuf v).observed = s.observed := rfl
end

section
variable (s : State) (v : Vector Byte 33)
@[simp] theorem State.withObuf_ibuf : (s.withObuf v).ibuf = s.ibuf := rfl
@[simp] theorem State.withObuf_obuf : (s.withObuf v).obuf = v := rfl
@[simp] theorem State.withObuf_frame : (s.withObuf v).frame = s.frame := rfl
@[simp] theorem State.withObuf_sdCtl : (s.withObuf v).sdCtl = s.sdCtl := rfl
@[simp] theorem State.withObuf_sdBuf : (s.withObuf v).sdBuf = s.sdBuf := rfl
@[simp] theorem State.withObuf_sdText : (s.withObuf v).sdText = s.sdText := rfl
@[simp] theorem State.withObuf_sdTvalid : (s.withObuf v).sdTvalid = s.sdTvalid := rfl
@[simp] theorem State.withObuf_demuxNib : (s.withObuf v).demuxNib = s.demuxNib := rfl
@[simp] theorem State.withObuf_sdSkip : (s.withObuf v).sdSkip = s.sdSkip := rfl
@[simp] theorem State.withObuf_syncpat : (s.withObuf v).syncpat = s.syncpat := rfl
@[simp] theorem State.withObuf_status : (s.withObuf v).status = s.status := rfl
@[simp] theorem State.withObuf_pending : (s.withObuf v).pending = s.pending := rfl
@[simp] theorem State.withObuf_observed : (s.withObuf v).observed = s.observed := rfl
end

section
variable (s : State) (v : Vector Row 4)
@[simp] theorem State.withFrame_ibuf : (s.withFrame v).ibuf = s.ibuf := rfl
@[simp] theorem State.withFrame_obuf : (s.withFrame v).obuf = s.obuf := rfl
@[simp] theorem State.withFrame_frame : (s.withFrame v).frame = v := rfl
@[simp] theorem State.withFrame_sdCtl : (s.withFrame v).sdCtl = s.sdCtl := rfl
@[simp] theorem State.withFrame_sdBuf : (s.withFrame v).sdBuf = s.sdBuf := rfl
@[simp] theorem State.withFrame_sdText : (s.withFrame v).sdText = s.sdText := rfl
@[simp] theorem State.withFrame_sdTvalid : (s.withFrame v).sdTvalid = s.sdTvalid := rfl
@[simp] theorem State.withFrame_demuxNib : (s.withFrame v).demuxNib = s.demuxNib := rfl
@[simp] theorem State.withFrame_sdSkip : (s.withFrame v).sdSkip = s.sdSkip := rfl
@[simp] theorem State.withFrame_syncpat : (s.withFrame v).syncpat = s.syncpat := rfl
@[simp] theorem State.withFrame_status : (s.withFrame v).status = s.status := rfl
@[simp] theorem State.withFrame_pending : (s.withFrame v).pending = s.pending := rfl
@[simp] theorem State.withFrame_observed : (s.withFrame v).observed = s.observed := rfl
end

section
variable (s : State) (v : SdCtl)
@[simp] theorem State.withSdCtl_ibuf : (s.withSdCtl v).ibuf = s.ibuf := rfl
@[simp] theorem State.withSdCtl_obuf : (s.withSdCtl v).obuf = s.obuf := rfl
@[simp] theorem State.withSdCtl_frame : (s.withSdCtl v).frame = s.frame := rfl
@[simp] theorem State.withSdCtl_sdCtl : (s.withSdCtl v).sdCtl = v := rfl
@[simp] theorem State.withSdCtl_sdBuf : (s.withSdCtl v).sdBuf = s.sdBuf := rfl
@[simp] theorem State.withSdCtl_sdText : (s.withSdCtl v).sdText = s.sdText := rfl
@[simp] theorem State.withSdCtl_sdTvalid : (s.withSdCtl v).sdTvalid = s.sdTvalid := rfl
@[simp] theorem State.withSdCtl_demuxNib : (s.withSdCtl v).demuxNib = s.demuxNib := rfl
@[simp] theorem State.withSdCtl_sdSkip : (s.withSdCtl v).sdSkip = s.sdSkip := rfl
@[simp] theorem State.withSdCtl_syncpat : (s.withSdCtl v).syncpat = s.syncpat := rfl
@[simp] theorem State.withSdCtl_status : (s.withSdCtl v).status = s.status := rfl
@[simp] theorem State.withSdCtl_pending : (s.withSdCtl v).pending = s.pending := rfl
@[simp] theorem State.withSdCtl_observed : (s.withSdCtl v).observed = s.observed := rfl
end

section
variable (s : State) (v : Vector Byte 20)
@[simp] theorem State.withSdBuf_ibuf : (s.withSdBuf v).ibuf = s.ibuf := rfl
@[simp] theorem State.withSdBuf_obuf : (s.withSdBuf v).obuf = s.obuf := rfl
@[simp] theorem State.withSdBuf_frame : (s.withSdBuf v).frame = s.frame := rfl
@[simp] theorem State.withSdBuf_sdCtl : (s.withSdBuf v).sdCtl = s.sdCtl := rfl
@[simp] theorem State.withSdBuf_sdBuf : (s.withSdBuf v).sdBuf = v := rfl
@[simp] theorem State.withSdBuf_sdText : (s.withSdBuf v).sdText = s.sdText := rfl
@[simp] theorem State.withSdBuf_sdTvalid : (s.withSdBuf v).sdTvalid = s.sdTvalid := rfl
@[simp] theorem State.withSdBuf_demuxNib : (s.withSdBuf v).demuxNib = s.demuxNib := rfl
@[simp] theorem State.withSdBuf_sdSkip : (s.withSdBuf v).sdSkip = s.sdSkip := rfl
@[simp] theorem State.withSdBuf_syncpat : (s.withSdBuf v).syncpat = s.syncpat := rfl
@[simp] theorem State.withSdBuf_status : (s.withSdBuf v).status = s.status := rfl
@[simp] theorem State.withSdBuf_pending : (s.withSdBuf v).pending = s.pending := rfl
@[simp] theorem State.withSdBuf_observed : (s.withSdBuf v).observed = s.observed := rfl
end

section
variable (s : State) (v : Vector Byte 21)
@[simp] theorem State.withSdText_ibuf : (s.withSdText v).ibuf = s.ibuf := rfl
@[simp] theorem State.withSdText_obuf : (s.withSdText v).obuf = s.obuf := rfl
@[simp] theorem State.withSdText_frame : (s.withSdText v).frame = s.frame := rfl
@[simp] theorem State.withSdText_sdCtl : (s.withSdText v).sdCtl = s.sdCtl := rfl
@[simp] theorem State.withSdText_sdBuf : (s.withSdText v).sdBuf = s.sdBuf := rfl
@[simp] theorem State.withSdText_sdText : (s.withSdText v).sdText = v := rfl
@[simp] theorem State.withSdText_sdTvalid : (s.withSdText v).sdTvalid = s.sdTvalid := rfl
@[simp] theorem State.withSdText_demuxNib : (s.withSdText v).demuxNib = s.demuxNib := rfl
@[simp] theorem State.withSdText_sdSkip : (s.withSdText v).sdSkip = s.sdSkip := rfl
@[simp] theorem State.withSdText_syncpat : (s.withSdText v).syncpat = s.syncpat := rfl
@[simp] theorem State.withSdText_status : (s.withSdText v).status = s.status := rfl
@[simp] theorem State.withSdText_pending : (s.withSdText v).pending = s.pending := rfl
@[simp] theorem State.withSdText_observed : (s.withSdText v).observed = s.observed := rfl
end

section
variable (s : State) (v : Bool)
@[simp] theorem State.withSdTvalid_ibuf : (s.withSdTvalid v).ibuf = s.ibuf := rfl
@[simp] theorem State.withSdTvalid_obuf : (s.withSdTvalid v).obuf = s.obuf := rfl
@[simp] theorem State.withSdTvalid_frame : (s.withSdTvalid v).frame = s.frame := rfl
@[simp] theorem State.withSdTvalid_sdCtl : (s.withSdTvalid v).sdCtl = s.sdCtl := rfl
@[simp] theorem State.withSdTvalid_sdBuf : (s.withSdTvalid v).sdBuf = s.sdBuf := rfl
@[simp] theorem State.withSdTvalid_sdText : (s.withSdTvalid v).sdText = s.sdText := rfl
@[simp] theorem State.withSdTvalid_sdTvalid : (s.withSdTvalid v).sdTvalid = v := rfl
@[simp] theorem State.withSdTvalid_demuxNib : (s.withSdTvalid v).demuxNib = s.demuxNib := rfl
@[simp] theorem State.withSdTvalid_sdSkip : (s.withSdTvalid v).sdSkip = s.sdSkip := rfl
@[simp] theorem State.withSdTvalid_syncpat : (s.withSdTvalid v).syncpat = s.syncpat := rfl
@[simp] theorem State.withSdTvalid_status : (s.withSdTvalid v).status = s.status := rfl
@[simp] theorem State.withSdTvalid_pending : (s.withSdTvalid v).pending = s.pending := rfl
@[simp] theorem State.withSdTvalid_observed : (s.withSdTvalid v).observed = s.observed := rfl
end

section
variable (s : State) (v : Bool)
@[simp] theorem State.withDemuxNib_ibuf : (s.withDemuxNib v).ibuf = s.ibuf := rfl
@[simp] theorem State.withDemuxNib_obuf : (s.withDemuxNib v).obuf = s.obuf := rfl
@[simp] theorem State.withDemuxNib_frame : (s.withDemuxNib v).frame = s.frame := rfl
@[simp] theorem State.withDemuxNib_sdCtl : (s.withDemuxNib v).sdCtl = s.sdCtl := rfl
@[simp] theorem State.withDemuxNib_sdBuf : (s.withDemuxNib v).sdBuf = s.sdBuf := rfl
@[simp] theorem State.withDemuxNib_sdText : (s.withDemuxNib v).sdText = s.sdText := rfl
@[simp] theorem State.withDemuxNib_sdTvalid : (s.withDemuxNib v).sdTvalid = s.sdTvalid := rfl
@[simp] theorem State.withDemuxNib_demuxNib : (s.withDemuxNib v).demuxNib = v := rfl
@[simp] theorem State.withDemuxNib_sdSkip : (s.withDemuxNib v).sdSkip = s.sdSkip := rfl
@[simp] theorem State.withDemuxNib_syncpat : (s.withDemuxNib v).syncpat = s.syncpat := rfl
@[simp] theorem State.withDemuxNib_status : (s.withDemuxNib v).status = s.status := rfl
@[simp] theorem State.withDemuxNib_pending : (s.withDemuxNib v).pending = s.pending := rfl
@[simp] theorem State.withDemuxNib_observed : (s.withDemuxNib v).observed = s.observed := rfl
end

section
variable (s : State) (v : Bool)
@[simp] theorem State.withSdSkip_ibuf : (s.withSdSkip v).ibuf = s.ibuf := rfl
@[simp] theorem State.withSdSkip_obuf : (s.withSdSkip v).obuf = s.obuf := rfl
@[simp] theorem State.withSdSkip_frame : (s.withSdSkip v).frame = s.frame := rfl
@[simp] theorem State.withSdSkip_sdCtl : (s.withSdSkip v).sdCtl = s.sdCtl := rfl
@[simp] theorem State.withSdSkip_sdBuf : (s.withSdSkip v).sdBuf = s.sdBuf := rfl
@[simp] theorem State.withSdSkip_sdText : (s.withSdSkip v).sdText = s.sdText := rfl
@[simp] theorem State.withSdSkip_sdTvalid : (s.withSdSkip v).sdTvalid = s.sdTvalid := rfl
@[simp] theorem State.withSdSkip_demuxNib : (s.withSdSkip v).demuxNib = s.demuxNib := rfl
@[simp] theorem State.withSdSkip_sdSkip : (s.withSdSkip v).sdSkip = v := rfl
@[simp] theorem State.withSdSkip_syncpat : (s.withSdSkip v).syncpat = s.syncpat := rfl
@[simp] theorem State.withSdSkip_status : (s.withSdSkip v).status = s.status := rfl
@[simp] theorem State.withSdSkip_pending : (s.withSdSkip v).pending = s.pending := rfl
@[simp] theorem State.withSdSkip_observed : (s.withSdSkip v).observed = s.observed := rfl
end

section
variable (s : State) (v : Vector Byte 7)
@[simp] theorem State.withSyncpat_ibuf : (s.withSyncpat v).ibuf = s.ibuf := rfl
@[simp] theorem State.withSyncpat_obuf : (s.withSyncpat v).obuf = s.obuf := rfl
@[simp] theorem State.withSyncpat_frame : (s.withSyncpat v).frame = s.frame := rfl
@[simp] theorem State.withSyncpat_sdCtl : (s.withSyncpat v).sdCtl = s.sdCtl := rfl
@[simp] theorem State.withSyncpat_sdBuf : (s.withSyncpat v).sdBuf = s.sdBuf := rfl
@[simp] theorem State.withSyncpat_sdText : (s.withSyncpat v).sdText = s.sdText := rfl
@[simp] theorem State.withSyncpat_sdTvalid : (s.withSyncpat v).sdTvalid = s.sdTvalid := rfl
@[simp] theorem State.withSyncpat_demuxNib : (s.withSyncpat v).demuxNib = s.demuxNib := rfl
@[simp] theorem State.withSyncpat_sdSkip : (s.withSyncpat v).sdSkip = s.sdSkip := rfl
@[simp] theorem State.withSyncpat_syncpat : (s.withSyncpat v).syncpat = v := rfl
@[simp] theorem State.withSyncpat_status : (s.withSyncpat v).status = s.status := rfl
@[simp] theorem State.withSyncpat_pending : (s.withSyncpat v).pending = s.pending := rfl
@[simp] theorem State.withSyncpat_observed : (s.withSyncpat v).observed = s.observed := rfl
end

section
variable (s : State) (v : Byte)
@[simp] theorem State.withStatus_ibuf : (s.withStatus v).ibuf = s.ibuf := rfl
@[simp] theorem State.withStatus_obuf : (s.withStatus v).obuf = s.obuf := rfl
@[simp] theorem State.withStatus_frame : (s.withStatus v).frame = s.frame := rfl
@[simp] theorem State.withStatus_sdCtl : (s.withStatus v).sdCtl = s.sdCtl := rfl
@[simp] theorem State.withStatus_sdBuf : (s.withStatus v).sdBuf = s.sdBuf := rfl
@[simp] theorem State.withStatus_sdText : (s.withStatus v).sdText = s.sdText := rfl
@[simp] theorem State.withStatus_sdTvalid : (s.withStatus v).sdTvalid = s.sdTvalid := rfl
@[simp] theorem State.withStatus_demuxNib : (s.withStatus v).demuxNib = s.demuxNib := rfl
@[simp] theorem State.withStatus_sdSkip : (s.withStatus v).sdSkip = s.sdSkip := rfl
@[simp] theorem State.withStatus_syncpat : (s.withStatus v).syncpat = s.syncpat := rfl
@[simp] theorem State.withStatus_status : (s.withStatus v).status = v := rfl
@[simp] theorem State.withStatus_pending : (s.withStatus v).pending = s.pending := rfl
@[simp] theorem State.withStatus_observed : (s.withStatus v).observed = s.observed := rfl
end

section
variable (s : State) (v : List Input)
@[simp] theorem State.withPending_ibuf : (s.withPending v).ibuf = s.ibuf := rfl
@[simp] theorem State.withPending_obuf : (s.withPending v).obuf = s.obuf := rfl
@[simp] theorem State.withPending_frame : (s.withPending v).frame = s.frame := rfl
@[simp] theorem State.withPending_sdCtl : (s.withPending v).sdCtl = s.sdCtl := rfl
@[simp] theorem State.withPending_sdBuf : (s.withPending v).sdBuf = s.sdBuf := rfl
@[simp] theorem State.withPending_sdText : (s.withPending v).sdText = s.sdText := rfl
@[simp] theorem State.withPending_sdTvalid : (s.withPending v).sdTvalid = s.sdTvalid := rfl
@[simp] theorem State.withPending_demuxNib : (s.withPending v).demuxNib = s.demuxNib := rfl
@[simp] theorem State.withPending_sdSkip : (s.withPending v).sdSkip = s.sdSkip := rfl
@[simp] theorem State.withPending_syncpat : (s.withPending v).syncpat = s.syncpat := rfl
@[simp] theorem State.withPending_status : (s.withPending v).status = s.status := rfl
@[simp] theorem State.withPending_pending : (s.withPending v).pending = v := rfl
@[simp] theorem State.withPending_observed : (s.withPending v).observed = s.observed := rfl
end

section
variable (s : State) (v : List Byte)
@[simp] theorem State.withObserved_ibuf : (s.withObserved v).ibuf = s.ibuf := rfl
@[simp] theorem State.withObserved_obuf : (s.withObserved v).obuf = s.obuf := rfl
@[simp] theorem State.withObserved_frame : (s.withObserved v).frame = s.frame := rfl
@[simp] theorem State.withObserved_sdCtl : (s.withObserved v).sdCtl = s.sdCtl := rfl
@[simp] theorem State.withObserved_sdBuf : (s.withObserved v).sdBuf = s.sdBuf := rfl
@[simp] theorem State.withObserved_sdText : (s.withObserved v).sdText = s.sdText := rfl
@[simp] theorem State.withObserved_sdTvalid : (s.withObserved v).sdTvalid = s.sdTvalid := rfl
@[simp] theorem State.withObserved_demuxNib : (s.withObserved v).demuxNib = s.demuxNib := rfl
@[simp] theorem State.withObserved_sdSkip : (s.withObserved v).sdSkip = s.sdSkip := rfl
@[simp] theorem State.withObserved_syncpat : (s.withObserved v).syncpat = s.syncpat := rfl
@[simp] theorem State.withObserved_status : (s.withObserved v).status = s.status := rfl
@[simp] theorem State.withObserved_pending : (s.withObserved v).pending = s.pending := rfl
@[simp] theorem State.withObserved_observed : (s.withObserved v).observed = v := rfl
end

end Sys2Proof.Machine
end

