-- ==== Sys2Proof/Laws/Ops.lean ====
section
/-! SUPPORT. What each shared operation of Machine/Ops.lean and Machine/Flags.lean does, said once. -/

namespace Sys2Proof.Machine

/-! ### Byte buffers -/

/-- What `writeBytes` leaves at every index. -/
theorem getElem_writeBytes {n : Nat} (buf : Vector Byte n) (base : Nat) (bytes : List Byte) (i : Nat) (h : i < n) :
    (writeBytes buf base bytes)[i] =
      if base ≤ i ∧ i < base + bytes.length then bytes.getD (i - base) 0 else buf[i] := by
  simp [writeBytes]

@[simp] theorem getElem_zeroBytes (n i : Nat) (h : i < n) : (zeroBytes n)[i] = 0x00 := by simp [zeroBytes]

/-- What OBUF holds after a command with byte results: the result bytes, and zeros after them. -/
theorem getElem_resultBytes (bytes : List Byte) (i : Nat) (h : i < 33) : (resultBytes bytes)[i] = bytes.getD i 0 := by
  by_cases hi : i < bytes.length <;> simp [resultBytes, getElem_writeBytes, hi]

/-! ### Bit arrays -/

theorem natOfBits_lt (f : Nat → Bool) (n : Nat) : natOfBits f n < 2 ^ n := by
  induction n with
  | zero => simp [natOfBits]
  | succ n ih => rw [natOfBits, Nat.pow_succ]; split <;> omega

theorem testBit_natOfBits (f : Nat → Bool) (n i : Nat) : (natOfBits f n).testBit i = (decide (i < n) && f i) := by
  induction n with
  | zero => simp [natOfBits]
  | succ n ih =>
    rw [natOfBits]
    have hlt := natOfBits_lt f n
    have hsum : natOfBits f n + (if f n then 2 ^ n else 0) = (if f n then 2 ^ n else 0) ||| natOfBits f n := by
      split
      · rw [Nat.add_comm]; simpa using Nat.two_pow_add_eq_or_of_lt hlt 1
      · simp
    rw [hsum, Nat.testBit_or, ih]
    rcases Nat.lt_trichotomy i n with hi | rfl | hi
    · have : i ≠ n := by omega
      cases hf : f n <;> simp [hi, Nat.lt_succ_of_lt hi, Ne.symm this]
    · cases hf : f i <;> simp
    · have h1 : ¬ i < n := by omega
      have h2 : ¬ i < n + 1 := by omega
      have : n ≠ i := by omega
      cases hf : f n <;> simp [h1, h2, this]

/-- Bit `i` of `ofBits w f` is `f i`, below the width. -/
@[simp] theorem getLsbD_ofBits (w : Nat) (f : Nat → Bool) (i : Nat) :
    (ofBits w f).getLsbD i = (decide (i < w) && f i) := by
  rw [ofBits, BitVec.getLsbD_ofNat, testBit_natOfBits]
  by_cases h : i < w <;> simp [h]

/-- What `setBit` leaves at every position. -/
theorem getLsbD_setBit {w : Nat} (m : BitVec w) (i j : Nat) (b : Bool) :
    (setBit m i b).getLsbD j = if i = j then decide (j < w) && b else m.getLsbD j := by
  unfold setBit
  by_cases hj : j < w
  · by_cases hij : i = j
    · subst hij; cases b <;> simp [hj]
    · cases b <;> simp only [Bool.false_eq_true, if_true, if_false, BitVec.getLsbD_or, BitVec.getLsbD_and,
        BitVec.getLsbD_not, BitVec.getLsbD_twoPow, hij, decide_false, Bool.and_false, Bool.or_false, hj, decide_true,
        Bool.not_false, Bool.and_true]
  · rw [BitVec.getLsbD_of_ge _ _ (Nat.le_of_not_lt hj), BitVec.getLsbD_of_ge _ _ (Nat.le_of_not_lt hj)]
    simp [hj]

/-- A position that no assignment of the list names keeps its bit. -/
theorem getLsbD_scatterBits_other {w : Nat} (writes : List (Nat × Bool)) (m : BitVec w) (j : Nat)
    (h : ∀ p ∈ writes, p.1 ≠ j) : (scatterBits m writes).getLsbD j = m.getLsbD j := by
  induction writes generalizing m with
  | nil => rfl
  | cons p rest ih =>
    have hp : p.1 ≠ j := h p (by simp)
    have := ih (setBit m p.1 p.2) (fun q hq => h q (by simp [hq]))
    rw [getLsbD_setBit, if_neg hp] at this
    exact this

/-- When no position is named twice, each named position below the width holds the bit assigned to it. -/
theorem getLsbD_scatterBits_mem {w : Nat} (writes : List (Nat × Bool)) (m : BitVec w) (j : Nat) (b : Bool)
    (hn : (writes.map Prod.fst).Nodup) (hm : (j, b) ∈ writes) (hj : j < w) : (scatterBits m writes).getLsbD j = b := by
  induction writes generalizing m with
  | nil => simp at hm
  | cons p rest ih =>
    simp only [List.map_cons, List.nodup_cons] at hn
    rcases List.mem_cons.1 hm with rfl | hr
    · have hrest := getLsbD_scatterBits_other rest (setBit m j b) j (fun q hq he => hn.1 (List.mem_map.2 ⟨q, hq, he⟩))
      rw [getLsbD_setBit, if_pos rfl, decide_eq_true hj, Bool.true_and] at hrest
      exact hrest
    · exact ih (setBit m p.1 p.2) hn.2 hr

@[simp] theorem xorBits_nil : xorBits [] = false := rfl
@[simp] theorem xorBits_cons (b : Bool) (l : List Bool) : xorBits (b :: l) = (b ^^ xorBits l) := rfl

/-! ### FRAME cells -/

/-- What `setCell` leaves in every cell. -/
theorem cell_setCell (f : Vector Row 4) (r r' : Fin 4) (c c' : Fin 24) (b : Bool) :
    cell (setCell f r c b) r' c' = if (r, c) = (r', c') then b else cell f r' c' := by
  unfold cell setCell
  by_cases hr : r = r'
  · subst hr
    rw [Vector.getElem_set_self, getLsbD_setBit]
    by_cases hc : c = c'
    · subst hc; simp
    · rw [if_neg (fun h => hc (Fin.ext h)), if_neg (by simp [hc])]
  · rw [Vector.getElem_set_ne _ _ (fun h => hr (Fin.ext h)), if_neg (by simp [hr])]

@[simp] theorem cell_clearFrame (r : Fin 4) (c : Fin 24) : cell clearFrame r c = false := by simp [cell, clearFrame]

/-- Two frames with the same cells are equal. -/
theorem frame_ext {f g : Vector Row 4} (h : ∀ r c, cell f r c = cell g r c) : f = g := by
  apply Vector.ext
  intro i hi
  apply BitVec.eq_of_getLsbD_eq
  intro j hj
  exact h ⟨i, hi⟩ ⟨j, hj⟩

/-- A cell that no assignment of the list names keeps its value. -/
theorem cell_scatterCells_other (writes : List ((Fin 4 × Fin 24) × Bool)) (f : Vector Row 4) (r : Fin 4) (c : Fin 24)
    (h : ∀ p ∈ writes, p.1 ≠ (r, c)) : cell (scatterCells f writes) r c = cell f r c := by
  induction writes generalizing f with
  | nil => rfl
  | cons p rest ih =>
    have hp : p.1 ≠ (r, c) := h p (by simp)
    have := ih (setCell f p.1.1 p.1.2 p.2) (fun q hq => h q (by simp [hq]))
    rw [cell_setCell, if_neg hp] at this
    exact this

/-- When no cell is named twice, each named cell holds the bit assigned to it. -/
theorem cell_scatterCells_mem (writes : List ((Fin 4 × Fin 24) × Bool)) (f : Vector Row 4) (r : Fin 4) (c : Fin 24)
    (b : Bool) (hn : (writes.map Prod.fst).Nodup) (hm : ((r, c), b) ∈ writes) :
    cell (scatterCells f writes) r c = b := by
  induction writes generalizing f with
  | nil => simp at hm
  | cons p rest ih =>
    simp only [List.map_cons, List.nodup_cons] at hn
    rcases List.mem_cons.1 hm with rfl | hr
    · have hrest := cell_scatterCells_other rest (setCell f r c b) r c (fun q hq he => hn.1 (List.mem_map.2 ⟨q, hq, he⟩))
      rw [cell_setCell, if_pos rfl] at hrest
      exact hrest
    · exact ih (setCell f p.1.1 p.1.2 p.2) hn.2 hr

/-! ### STATUS -/

@[simp] theorem statusLastOp_statusWord (ev : SdEvent) (err : Bool) (op : BitVec 4) :
    statusLastOp (statusWord ev err op) = op := by
  revert op; cases ev <;> cases err <;> decide

@[simp] theorem statusErr_statusWord (ev : SdEvent) (err : Bool) (op : BitVec 4) :
    statusErr (statusWord ev err op) = err := by
  revert op; cases ev <;> cases err <;> decide

@[simp] theorem statusSdEv_statusWord (ev : SdEvent) (err : Bool) (op : BitVec 4) :
    statusSdEv (statusWord ev err op) = ev.code := by
  revert op; cases ev <;> cases err <;> decide

/-! ### The end of a command, and IllegalCommand -/

/-- A legal command's STATUS write changes STATUS alone. -/
theorem finish_eq (i : Instr) (ev : SdEvent) (s : State) :
    finish i ev s = { s with status := statusWord ev false (opField (encode i)) } := rfl

/-- The STATUS of a legal command with no assembler event is the command word: SD_EV = NONE, ERR = 0. -/
theorem statusWord_none_encode (i : Instr) : statusWord .none false (opField (encode i)) = encode i := by
  cases i <;> decide

/-- A legal command with no assembler event leaves its own word in STATUS. -/
theorem finish_none_eq (i : Instr) (s : State) : finish i .none s = { s with status := encode i } := by
  rw [finish_eq, statusWord_none_encode]

/-- IllegalCommand changes STATUS alone. -/
theorem raiseIllegalCommand_eq (w : Byte) (s : State) :
    raiseIllegalCommand w s = { s with status := statusWord .none true (opField w) } := rfl

/-! ### The register space -/

/-- A host write that issues no command changes only IBUF, CFG and SYNCPAT. -/
theorem writeRegion_frame (r : Region) (v : Byte) (s : State) :
    writeRegion r v s =
      { s with
        ibuf := (writeRegion r v s).ibuf
        demuxNib := (writeRegion r v s).demuxNib
        sdSkip := (writeRegion r v s).sdSkip
        syncpat := (writeRegion r v s).syncpat } := by
  cases r <;> rfl

end Sys2Proof.Machine
end

