-- ==== Sys2Proof/Laws/Encoders.lean ====
section
/-! SUPPORT. What the operand forms and the stages of the encoders and deinterleavers do, said once, for any tables. -/

namespace Sys2Proof.Machine

/-! ### Operands -/

@[simp] theorem getElem_operandBytes (s : State) (n : Nat) (h : n ≤ 33) (i : Nat) (hi : i < n) :
    (operandBytes s n h)[i] = s.ibuf[i] := by
  simp [operandBytes]

/-- The first `n` bytes of IBUF give the same bit stream as IBUF, as far as they go. -/
theorem msbStream_operandBytes (s : State) (n : Nat) (h : n ≤ 33) (k : Nat) (hk : k < 8 * n) :
    msbStream (operandBytes s n h) k = msbStream s.ibuf k := by
  have h1 : k / 8 < n := by omega
  have h2 : k / 8 < 33 := by omega
  simp [msbStream, Vector.getD, h1, h2]

/-! ### BPTC -/

/-- Every bit after the row code. -/
theorem getLsbD_encodeRows (T : Tables) (m : BitVec 196) (a : Nat) :
    (encodeRows T m).getLsbD a =
      (decide (a < 196) &&
        if 1 ≤ a ∧ (a - 1) / 15 ≤ 8 ∧ 11 ≤ (a - 1) % 15 then
          rowParity T m ((a - 1) / 15) ⟨((a - 1) % 15 - 11) % 4, Nat.mod_lt _ (by decide)⟩
        else m.getLsbD a) := by
  unfold encodeRows; rw [getLsbD_ofBits]

/-- Every bit after the column code. -/
theorem getLsbD_encodeCols (T : Tables) (m : BitVec 196) (a : Nat) :
    (encodeCols T m).getLsbD a =
      (decide (a < 196) &&
        if 1 ≤ a ∧ 9 ≤ (a - 1) / 15 then
          colParity T m ((a - 1) % 15) ⟨((a - 1) / 15 - 9) % 4, Nat.mod_lt _ (by decide)⟩
        else m.getLsbD a) := by
  unfold encodeCols; rw [getLsbD_ofBits]

/-- Every bit of a packed carrier, counted MSB-first. -/
theorem msbStream_packCarrier (t : BitVec 196) (n : Nat) (h : n < 264) :
    msbStream (packCarrier t) n = carrierBit t n := by
  have h1 : n / 8 < 33 := by omega
  have h2 : 7 - n % 8 < 8 := by omega
  have h3 : 8 * (n / 8) + (7 - (7 - n % 8)) = n := by omega
  have hb : (packCarrier t)[n / 8] = ofBits 8 fun j => carrierBit t (8 * (n / 8) + (7 - j)) := by simp [packCarrier]
  have hd : (packCarrier t).getD (n / 8) 0 = (packCarrier t)[n / 8] := by simp [Vector.getD, h1]
  rw [msbStream, hd, hb, getLsbD_ofBits, decide_eq_true h2, Bool.true_and, h3]

/-- Where the interleave puts each bit, when its multiplier and modulus make the 196 targets distinct. -/
theorem getLsbD_interleave (T : Tables) (hm : T.bptcIlvMod = 196)
    (hT : ((List.range 196).map fun a => a * T.bptcIlv % T.bptcIlvMod).Nodup) (m : BitVec 196) (a : Nat) (ha : a < 196) :
    (interleave T m).getLsbD (a * T.bptcIlv % T.bptcIlvMod) = m.getLsbD a := by
  apply getLsbD_scatterBits_mem
  · rw [List.map_map]; exact hT
  · exact List.mem_map.2 ⟨a, List.mem_range.2 ha, rfl⟩
  · rw [hm]; exact Nat.mod_lt _ (by decide)

/-! ### The header builder -/

/-- What the sync overwrite leaves in every byte. -/
theorem getElem_overwriteSync (k : Vector Byte 33) (sync : Vector Byte 7) (i : Nat) (h : i < 33) :
    (overwriteSync k sync)[i] = if 13 ≤ i ∧ i < 20 then sync.toList.getD (i - 13) 0 else k[i] := by
  rw [overwriteSync, getElem_writeBytes]; simp

/-! ### The deinterleavers -/

/-- The cells the Family A writes name are the configuration's. -/
theorem writesA_cells (T : Tables) (unit : Vector Byte 9) : (writesA T unit).map Prod.fst = T.cellsA := by
  simp [writesA, Tables.cellsA]

/-- The demultiplexer, byte by byte. -/
theorem getElem_demuxBytes (nib : Bool) (p : Vector Byte 33) (i : Nat) (h : i < 27) :
    (demuxBytes nib p)[i] =
      if i < 13 then p[i] else if i = 13 then p[13].extractLsb' 4 4 ++ demuxNibble nib p[19] else p[i + 6] := by
  simp [demuxBytes]

end Sys2Proof.Machine
end

