-- ==== Sys2Proof/Laws/PerInstr.lean ====
section
/-! SUPPORT. Statements about the commands as syntax, one lemma per constructor (LAWS.json). -/

namespace Sys2Proof.Laws

/-- The word of a command has RSV = 0 and an assigned OP, so it is none of the illegal words of 30_encoding.md R83. -/
def LegalWord.Statement (i : Instr) : Prop := rsvField (encode i) = 0 ∧ (opField (encode i)).toNat < 0xB

theorem LegalWord.nop : LegalWord.Statement .nop := by unfold Statement; decide
theorem LegalWord.golayEnc : LegalWord.Statement .golayEnc := by unfold Statement; decide
theorem LegalWord.bptcEnc : LegalWord.Statement .bptcEnc := by unfold Statement; decide
theorem LegalWord.rsParity : LegalWord.Statement .rsParity := by unfold Statement; decide
theorem LegalWord.lcEnc : LegalWord.Statement .lcEnc := by unfold Statement; decide
theorem LegalWord.hdrBuild : LegalWord.Statement .hdrBuild := by unfold Statement; decide
theorem LegalWord.deintA : LegalWord.Statement .deintA := by unfold Statement; decide
theorem LegalWord.deintB : LegalWord.Statement .deintB := by unfold Statement; decide
theorem LegalWord.dmrDemux : LegalWord.Statement .dmrDemux := by unfold Statement; decide
theorem LegalWord.sdReset : LegalWord.Statement .sdReset := by unfold Statement; decide
theorem LegalWord.sdFrame : LegalWord.Statement .sdFrame := by unfold Statement; decide

end Sys2Proof.Laws
end

