-- ==== Sys2Proof/Laws/Step.lean ====
section
/-! SUPPORT. What a step can do, said once: the inversion lemmas of the step, the host's write and the issue of a
command, what each command's meaning answers, and that the machine is the block built with the default tables. -/

namespace Sys2Proof.Machine

/-- What a step does, by the host's next input. -/
theorem stepBy_eq (run : CommandSet) (s : State) :
    stepBy run s = match s.pending with
      | [] => .next s
      | x :: rest => performBy run x (s.withPending rest) := rfl

/-- Everything a step that goes on can be, whatever the command set: nothing, a host read, a host write that issues no
command, a command, an illegal word, or a reset. -/
theorem stepBy_cases {run : CommandSet} {s t : State} (h : stepBy run s = .next t) :
    (s.pending = [] ∧ t = s) ∨
    (∃ a rest, s.pending = .read a :: rest ∧ t = hostRead a (s.withPending rest)) ∨
    (∃ a v rest, s.pending = .write a v :: rest ∧ region a ≠ .cmd ∧ t = writeRegion (region a) v (s.withPending rest)) ∨
    (∃ a w i rest, s.pending = .write a w :: rest ∧ region a = .cmd ∧ decode w = .ok i ∧
      run i (s.withPending rest) = .next t) ∨
    (∃ a w e rest, s.pending = .write a w :: rest ∧ region a = .cmd ∧ decode w = .error e ∧
      t = raiseIllegalCommand w (s.withPending rest)) ∨
    (∃ rest, s.pending = .reset :: rest ∧ t = resetBlock (s.withPending rest)) := by
  rw [stepBy_eq] at h
  match hp : s.pending with
  | [] => rw [hp] at h; exact .inl ⟨rfl, by simpa using h.symm⟩
  | .read a :: rest =>
    rw [hp] at h
    exact .inr (.inl ⟨a, rest, rfl, by simpa [performBy] using h.symm⟩)
  | .reset :: rest =>
    rw [hp] at h
    exact .inr (.inr (.inr (.inr (.inr ⟨rest, rfl, by simpa [performBy] using h.symm⟩))))
  | .write a v :: rest =>
    rw [hp] at h
    simp only [performBy, hostWriteBy] at h
    by_cases hc : region a = .cmd
    · rw [hc] at h
      simp only [executeBy] at h
      match hd : decode v with
      | .ok i => rw [hd] at h; exact .inr (.inr (.inr (.inl ⟨a, v, i, rest, rfl, hc, hd, h⟩)))
      | .error e =>
        rw [hd] at h
        exact .inr (.inr (.inr (.inr (.inl ⟨a, v, e, rest, rfl, hc, hd, by simpa using h.symm⟩))))
    · refine .inr (.inr (.inl ⟨a, v, rest, rfl, hc, ?_⟩))
      split at h
      · contradiction
      · simpa using h.symm

/-- `stepBy_eq` at the default tables. -/
theorem step_eq (s : State) :
    step s = match s.pending with
      | [] => .next s
      | x :: rest => perform x (s.withPending rest) := rfl

/-- `stepBy_cases` at the default tables. -/
theorem step_cases {s t : State} (h : step s = .next t) :
    (s.pending = [] ∧ t = s) ∨
    (∃ a rest, s.pending = .read a :: rest ∧ t = hostRead a (s.withPending rest)) ∨
    (∃ a v rest, s.pending = .write a v :: rest ∧ region a ≠ .cmd ∧ t = writeRegion (region a) v (s.withPending rest)) ∨
    (∃ a w i rest, s.pending = .write a w :: rest ∧ region a = .cmd ∧ decode w = .ok i ∧
      exec i (s.withPending rest) = .next t) ∨
    (∃ a w e rest, s.pending = .write a w :: rest ∧ region a = .cmd ∧ decode w = .error e ∧
      t = raiseIllegalCommand w (s.withPending rest)) ∨
    (∃ rest, s.pending = .reset :: rest ∧ t = resetBlock (s.withPending rest)) := stepBy_cases h

/-- The command set the machine runs is the one built with the default tables (00_scope.md R7). -/
theorem exec_eq_execWith (i : Instr) (s : State) : exec i s = execWith defaultTables i s := by cases i <;> rfl

/-- The machine is the block built with the default tables. -/
theorem step_eq_stepWith (s : State) : step s = stepWith defaultTables s := by
  have h : exec = execWith defaultTables := funext fun i => funext fun s => exec_eq_execWith i s
  show stepBy exec s = stepBy (execWith defaultTables) s
  rw [h]

/-- CMD is at 0xFF and nowhere else (10_state.md R31). -/
theorem region_eq_cmd_iff : ∀ a : Byte, region a = .cmd ↔ a = 0xFF := by decide +kernel

/-! What each command answers, with its frame: for any tables, and then for the default ones. -/

theorem execWith_golayEnc (T : Tables) (s : State) :
    execWith T .golayEnc s =
      .next { s with
        obuf := resultBytes (golayBytes T s.ibuf[0]).toList
        status := 0x01 } := by
  simp only [execWith, golayEncWith, finish_none_eq, encode, State.withObuf]

theorem execWith_bptcEnc (T : Tables) (s : State) :
    execWith T .bptcEnc s =
      .next { s with
        obuf := resultBytes (bptc T (operandBytes s 12 (by decide))).toList
        status := 0x02 } := by
  simp only [execWith, bptcEncWith, finish_none_eq, encode, State.withObuf]

theorem execWith_rsParity (T : Tables) (s : State) :
    execWith T .rsParity s =
      .next { s with
        obuf := resultBytes
          [(rsParity T (operandBytes s 9 (by decide))).r0, (rsParity T (operandBytes s 9 (by decide))).r1,
            (rsParity T (operandBytes s 9 (by decide))).r2]
        status := 0x03 } := by
  simp only [execWith, rsParityWith, finish_none_eq, encode, State.withObuf]

theorem execWith_lcEnc (T : Tables) (s : State) :
    execWith T .lcEnc s =
      .next { s with
        obuf := resultBytes (linkControl T (operandDst s) (operandSrc s)).toList
        status := 0x04 } := by
  simp only [execWith, lcEncWith, finish_none_eq, encode, State.withObuf]

theorem execWith_hdrBuild (T : Tables) (s : State) :
    execWith T .hdrBuild s =
      .next { s with
        obuf := resultBytes
          (headerCarrier T (operandDst s) (operandSrc s) (operandSlotType s) s.syncpat).toList
        status := 0x05 } := by
  simp only [execWith, hdrBuildWith, finish_none_eq, encode, State.withObuf]

theorem execWith_deintA (T : Tables) (s : State) :
    execWith T .deintA s =
      .next { s with
        frame := deinterleaveA T (operandBytes s 9 (by decide))
        status := 0x06 } := by
  simp only [execWith, deintAWith, finish_none_eq, encode, State.withFrame]

theorem execWith_deintB (T : Tables) (s : State) :
    execWith T .deintB s =
      .next { s with
        frame := deinterleaveB T (operandBytes s 9 (by decide))
        status := 0x07 } := by
  simp only [execWith, deintBWith, finish_none_eq, encode, State.withFrame]

theorem execWith_sdFrame (T : Tables) (s : State) :
    execWith T .sdFrame s =
      .next { (presentFrame T (operandSeq s) (operandAux s) s).1 with
        status := statusWord (presentFrame T (operandSeq s) (operandAux s) s).2 false 0xA } := by
  simp only [execWith, sdFrameWith, finish_eq]
  rw [show opField (encode .sdFrame) = 0xA from by decide]

theorem exec_golayEnc (s : State) :
    exec .golayEnc s =
      .next { s with
        obuf := resultBytes (golayBytes defaultTables s.ibuf[0]).toList
        status := 0x01 } := execWith_golayEnc defaultTables s

theorem exec_bptcEnc (s : State) :
    exec .bptcEnc s =
      .next { s with
        obuf := resultBytes (bptc defaultTables (operandBytes s 12 (by decide))).toList
        status := 0x02 } := execWith_bptcEnc defaultTables s

theorem exec_rsParity (s : State) :
    exec .rsParity s =
      .next { s with
        obuf := resultBytes
          [(rsParity defaultTables (operandBytes s 9 (by decide))).r0,
            (rsParity defaultTables (operandBytes s 9 (by decide))).r1,
            (rsParity defaultTables (operandBytes s 9 (by decide))).r2]
        status := 0x03 } := execWith_rsParity defaultTables s

theorem exec_lcEnc (s : State) :
    exec .lcEnc s =
      .next { s with
        obuf := resultBytes (linkControl defaultTables (operandDst s) (operandSrc s)).toList
        status := 0x04 } := execWith_lcEnc defaultTables s

theorem exec_hdrBuild (s : State) :
    exec .hdrBuild s =
      .next { s with
        obuf := resultBytes
          (headerCarrier defaultTables (operandDst s) (operandSrc s) (operandSlotType s) s.syncpat).toList
        status := 0x05 } := execWith_hdrBuild defaultTables s

theorem exec_deintA (s : State) :
    exec .deintA s =
      .next { s with
        frame := deinterleaveA defaultTables (operandBytes s 9 (by decide))
        status := 0x06 } := execWith_deintA defaultTables s

theorem exec_deintB (s : State) :
    exec .deintB s =
      .next { s with
        frame := deinterleaveB defaultTables (operandBytes s 9 (by decide))
        status := 0x07 } := execWith_deintB defaultTables s

theorem exec_dmrDemux (s : State) :
    exec .dmrDemux s =
      .next { s with obuf := resultBytes (demuxBytes s.demuxNib s.ibuf).toList, status := 0x08 } := by
  simp only [exec, execDmrDemux, finish_none_eq, encode, State.withObuf]

theorem exec_sdReset (s : State) :
    exec .sdReset s =
      .next { s with sdCtl := .disarmed, sdBuf := zeroBytes 20, sdTvalid := false, status := 0x09 } := by
  simp only [exec, execSdReset, finish_none_eq, encode, disarm, State.withSdCtl, State.withSdBuf,
    State.withSdTvalid]

theorem exec_sdFrame (s : State) :
    exec .sdFrame s =
      .next { (presentFrame defaultTables (operandSeq s) (operandAux s) s).1 with
        status := statusWord (presentFrame defaultTables (operandSeq s) (operandAux s) s).2 false 0xA } :=
  execWith_sdFrame defaultTables s

/-- Everything `presentFrame` can do, one case for each row of 45_slowdata.md R212. -/
theorem presentFrame_cases (T : Tables) (seq : Byte) (a : Vector Byte 3) (s : State) :
    (isSyncFrame seq a = true ∧ presentFrame T seq a s = (armOnSync s, .sync)) ∨
    (isSyncFrame seq a = false ∧ s.sdCtl = .disarmed ∧ presentFrame T seq a s = (s, .idle)) ∨
    (∃ n, isSyncFrame seq a = false ∧ s.sdCtl = .armed n ∧ seq ≠ n.num.setWidth 8 ∧ s.sdSkip = false ∧
      presentFrame T seq a s = (s, .seqIgnore)) ∨
    (∃ n, isSyncFrame seq a = false ∧ s.sdCtl = .armed n ∧ seq ≠ n.num.setWidth 8 ∧ s.sdSkip = true ∧
      presentFrame T seq a s = (disarm s, .seqDisarm)) ∨
    (∃ n, isSyncFrame seq a = false ∧ s.sdCtl = .armed n ∧ seq = n.num.setWidth 8 ∧
      markerMatches T n (unscramble a) = false ∧ presentFrame T seq a s = (disarm s, .markerFail)) ∨
    (∃ n n', isSyncFrame seq a = false ∧ s.sdCtl = .armed n ∧ seq = n.num.setWidth 8 ∧
      markerMatches T n (unscramble a) = true ∧ n.next = some n' ∧
      presentFrame T seq a s =
        ((s.withSdBuf (writeBytes s.sdBuf n.base (n.recovered (unscramble a)))).withSdCtl (.armed n'), .step)) ∨
    (∃ n, isSyncFrame seq a = false ∧ s.sdCtl = .armed n ∧ seq = n.num.setWidth 8 ∧
      markerMatches T n (unscramble a) = true ∧ n.next = none ∧
      presentFrame T seq a s =
        (disarm (emitText (writeBytes s.sdBuf n.base (n.recovered (unscramble a))) s), .emit)) := by
  unfold presentFrame
  cases hs : isSyncFrame seq a
  · match hc : s.sdCtl with
    | .disarmed => simp
    | .armed n =>
      by_cases hq : seq = n.num.setWidth 8
      · cases hm : markerMatches T n (unscramble a)
        · simp [hq, hm]
        · cases hn : n.next <;> simp [hq, hm, acceptStep, hn]
      · cases hk : s.sdSkip <;> simp [hq]
  · simp

end Sys2Proof.Machine
end

