-- ==== Sys2Proof/Laws/SlowData.lean ====
section
/-! SUPPORT. The fields of State after each operation of the slow-data assembler, the step numbers, and the run of a
host program. -/

namespace Sys2Proof.Machine

/-! ### The assembler's operations, field by field -/

/-- `Disarm()` changes SD_ARMED, SD_STEP and SD_BUF alone. -/
theorem disarm_eq (s : State) : disarm s = { s with sdCtl := .disarmed, sdBuf := zeroBytes 20 } := rfl

/-- A sync changes SD_ARMED, SD_STEP and SD_BUF alone. -/
theorem armOnSync_eq (s : State) : armOnSync s = { s with sdCtl := .armed .s1, sdBuf := zeroBytes 20 } := rfl

/-- An emission changes SD_TEXT and SD_TVALID alone. -/
theorem emitText_eq (buf : Vector Byte 20) (s : State) :
    emitText buf s = { s with sdText := buf.push 0x00, sdTvalid := true } := rfl

/-- Presenting a frame changes the assembler's registers alone. -/
theorem presentFrame_frame (T : Tables) (seq : Byte) (a : Vector Byte 3) (s : State) :
    (presentFrame T seq a s).1 =
      { s with
        sdCtl := (presentFrame T seq a s).1.sdCtl
        sdBuf := (presentFrame T seq a s).1.sdBuf
        sdText := (presentFrame T seq a s).1.sdText
        sdTvalid := (presentFrame T seq a s).1.sdTvalid } := by
  rcases presentFrame_cases T seq a s with ⟨_, h⟩ | ⟨_, _, h⟩ | ⟨n, _, _, _, _, h⟩ | ⟨n, _, _, _, _, h⟩ |
    ⟨n, _, _, _, _, h⟩ | ⟨n, n', _, _, _, _, _, h⟩ | ⟨n, _, _, _, _, _, h⟩ <;>
    simp only [h, armOnSync_eq, disarm_eq, emitText_eq, State.withSdBuf, State.withSdCtl]

/-! ### Step numbers -/

theorem sdArmed_armed {s : State} {n : SdStep} (h : s.sdCtl = .armed n) : sdArmed s = true := by simp [sdArmed, h]

theorem sdArmed_disarmed {s : State} (h : s.sdCtl = .disarmed) : sdArmed s = false := by simp [sdArmed, h]

theorem sdStep_armed {s : State} {n : SdStep} (h : s.sdCtl = .armed n) : sdStep s = n.num := by simp [sdStep, h]

theorem sdStep_disarmed {s : State} (h : s.sdCtl = .disarmed) : sdStep s = 0 := by simp [sdStep, h]

/-- The step after `n` has the next number, and starts where `n`'s bytes end. -/
theorem SdStep.next_spec (n n' : SdStep) (h : n.next = some n') (u : Vector Byte 3) :
    n'.num = n.num + 1 ∧ n'.base = n.base + (n.recovered u).length := by
  cases n <;> cases h <;> exact ⟨rfl, rfl⟩

/-- Only step 8 has no successor; its bytes end the buffer. -/
theorem SdStep.next_none (n : SdStep) (h : n.next = none) (u : Vector Byte 3) :
    n = .s8 ∧ n.base + (n.recovered u).length = 20 := by
  cases n <;> first | exact ⟨rfl, rfl⟩ | cases h

/-! ### Host programs -/

@[simp] theorem runActs_nil (s : State) : runActs [] s = .next s := rfl

/-- Running an act that goes on, and then the rest. -/
theorem runActs_cons {act : HostAct} {rest : List HostAct} {s t : State} (h : runAct act s = .next t) :
    runActs (act :: rest) s = runActs rest t := by
  simp [runActs, h]

/-- Running one list of acts after another. -/
theorem runActs_append {l l' : List HostAct} {s t : State} (h : runActs l s = .next t) :
    runActs (l ++ l') s = runActs l' t := by
  induction l generalizing s with
  | nil => rw [runActs_nil] at h; simp [Host.Outcome.next.inj h]
  | cons act rest ih =>
    rw [List.cons_append]
    match hr : runAct act s with
    | .next u => rw [runActs_cons hr] at h ⊢; exact ih h
    | .fault r => simp [runActs, hr] at h
    | .refused r => simp [runActs, hr] at h

end Sys2Proof.Machine
end

