-- ==== Sys2Proof/Tests/Slice0.lean ====
section
/-! SUPPORT. The model's own tests: command words written out bit by bit, an ill-formed term for each check of
WellFormed, at most two one-step tests per command on vectors of 95_test_vectors.md or worked examples of the rules,
and, for every obligation with hypotheses, a witness that meets them. Expected values are the spec's. -/

set_option Elab.async false

namespace Sys2Proof.Tests

open Sys2Proof.Machine

/-! ### Helpers -/

/-- A buffer that starts with `l` and is zero after it. -/
def buf (n : Nat) (l : List Byte) : Vector Byte n := Vector.ofFn fun i => l.getD i.val 0

/-- A state with the BS voice sync in SYNCPAT (95_test_vectors.md §2.5), IBUF starting with `l`, and old contents in
the results. -/
def base (l : List Byte) : State :=
  { State.reset with
    ibuf := buf 33 l
    obuf := Vector.replicate 33 0x77
    frame := Vector.replicate 4 0xABCDEF
    syncpat := #v[0x07, 0x55, 0xFD, 0x7D, 0xF7, 0x5F, 0x70]
    status := 0x1F }

/-- The same state, armed at step `n` with `b` in SD_BUF. -/
def armed (n : SdStep) (b l : List Byte) : State := { base l with sdCtl := .armed n, sdBuf := buf 20 b }

/-- The same state with inputs pending. -/
def awaiting (s : State) (l : List Input) : State := { s with pending := l }

/-- The state after one step; `s` itself where the step does not go on. -/
def stepTo (s : State) : State :=
  match step s with
  | .next t => t
  | _ => s

/-- The step from `s` goes on to `t`. -/
def goesTo (s t : State) : Bool :=
  match step s with
  | .next u => decide (u = t)
  | _ => false

theorem step_of_goesTo {s t : State} (h : goesTo s t = true) : step s = .next t := by
  unfold goesTo at h
  match hs : step s with
  | .next u => rw [hs] at h; rw [of_decide_eq_true h]
  | .fault r => rw [hs] at h; cases h
  | .refused r => rw [hs] at h; cases h

/-- One step that issues the table word `w` goes on to `t`. -/
def runs (w : Nat) (s t : State) : Bool := goesTo (s.withFetchWord 8 w) t

/-! ### Decoding: RSV ‖ OP of each word, from the opcode map of 30_encoding.md R82 -/

theorem test_decode_nop : decode (0b0000#4 ++ 0b0000#4) = .ok .nop := by decide
theorem test_decode_golayEnc : decode (0b0000#4 ++ 0b0001#4) = .ok .golayEnc := by decide
theorem test_decode_bptcEnc : decode (0b0000#4 ++ 0b0010#4) = .ok .bptcEnc := by decide
theorem test_decode_rsParity : decode (0b0000#4 ++ 0b0011#4) = .ok .rsParity := by decide
theorem test_decode_lcEnc : decode (0b0000#4 ++ 0b0100#4) = .ok .lcEnc := by decide
theorem test_decode_hdrBuild : decode (0b0000#4 ++ 0b0101#4) = .ok .hdrBuild := by decide
theorem test_decode_deintA : decode (0b0000#4 ++ 0b0110#4) = .ok .deintA := by decide
theorem test_decode_deintB : decode (0b0000#4 ++ 0b0111#4) = .ok .deintB := by decide
theorem test_decode_dmrDemux : decode (0b0000#4 ++ 0b1000#4) = .ok .dmrDemux := by decide
theorem test_decode_sdReset : decode (0b0000#4 ++ 0b1001#4) = .ok .sdReset := by decide
theorem test_decode_sdFrame : decode (0b0000#4 ++ 0b1010#4) = .ok .sdFrame := by decide

theorem test_decode_unassigned : decode 0x0B = .error (.unassignedOp 0x0B) ∧ decode 0x0F = .error (.unassignedOp 0x0F) := by
  decide
theorem test_decode_reserved : decode 0x10 = .error (.reservedBits 0x10) ∧ decode 0xF1 = .error (.reservedBits 0xF1) := by
  decide
theorem test_decode_length : decodeTableWord 16 0x01 = none ∧ decodeTableWord 8 0x101 = none := by decide

/-! ### WellFormed: an ill-formed term for each check, refused -/

theorem test_wf_commands : ([.nop, .golayEnc, .bptcEnc, .rsParity, .lcEnc, .hdrBuild, .deintA, .deintB, .dmrDemux,
    .sdReset, .sdFrame] : List Instr).all Instr.wf = true := by decide
theorem test_wf_ldi_empty : (HostLine.ldi 0 []).wf = false := by decide
theorem test_wf_ldi_past_end : (HostLine.ldi 0x20 [1, 2]).wf = false := by decide
theorem test_wf_ld24_past_end : (HostLine.ld24 31 9).wf = false := by decide
theorem test_wf_movob_source_past_end : (HostLine.movob 1 0 33).wf = false := by decide
theorem test_wf_movob_target_past_end : (HostLine.movob 0 1 33).wf = false := by decide
theorem test_wf_default : defaultTables.wf = true := by decide +kernel
theorem test_wf_repeated_cell_a :
    ({ defaultTables with tabAX := defaultTables.tabAX.set 1 10 } : Tables).wf = false := by decide +kernel
theorem test_wf_repeated_cell_b :
    ({ defaultTables with tabBX := defaultTables.tabBX.set 2 23 } : Tables).wf = false := by decide +kernel
theorem test_wf_repeated_slot :
    ({ defaultTables with bptcSlots := defaultTables.bptcSlots.set 1 4 } : Tables).wf = false := by decide +kernel
theorem test_wf_slot_not_data :
    ({ defaultTables with bptcSlots := defaultTables.bptcSlots.set 1 12 } : Tables).wf = false := by decide +kernel
theorem test_wf_hamming_row_empty :
    ({ defaultTables with hamRow := Vector.replicate 4 [] } : Tables).wf = false := by decide +kernel
/-- Data row 8 left in one equation only. -/
theorem test_wf_hamming_col_weight :
    ({ defaultTables with hamCol := defaultTables.hamCol.set 3 [0, 2, 4, 5] } : Tables).wf = false := by decide +kernel
/-- Data row 8 given the pattern of data row 7. -/
theorem test_wf_hamming_col_repeated :
    ({ defaultTables with
      hamCol := (defaultTables.hamCol.set 1 [0, 1, 2, 4, 6, 7, 8]).set 3 [0, 2, 4, 5] } : Tables).wf = false := by
  decide +kernel
theorem test_wf_interleave_not_coprime :
    ({ defaultTables with bptcIlv := 182 } : Tables).wf = false := by decide +kernel
theorem test_wf_interleave_modulus :
    ({ defaultTables with bptcIlvMod := 195 } : Tables).wf = false := by decide +kernel
/-- 0x11B is irreducible, but `α` has order 51 in its field. -/
theorem test_wf_field_not_primitive :
    ({ defaultTables with gfPrim := 0x11B } : Tables).wf = false ∧ rsGenerator 0x11B = defaultTables.rsGen := by
  decide +kernel
theorem test_wf_field_degree :
    ({ defaultTables with gfPrim := 0x01D } : Tables).wf = false ∧ rsGenerator 0x01D = defaultTables.rsGen := by
  decide +kernel
theorem test_wf_generator_not_monic :
    ({ defaultTables with rsGen := defaultTables.rsGen.set 3 2 } : Tables).wf = false := by decide +kernel
theorem test_wf_generator_roots :
    ({ defaultTables with rsGen := defaultTables.rsGen.set 0 65 } : Tables).wf = false := by decide +kernel
theorem test_wf_golay_entry :
    ({ defaultTables with golayP := defaultTables.golayP.set 1 0 } : Tables).wf = false := by decide +kernel
/-- A generator that does not give the default table. -/
theorem test_wf_golay_generator :
    ({ defaultTables with golayG := 0xAE3 } : Tables).wf = false := by decide +kernel

/-- A generator without bit 11, with the very table the parity function gives for it. -/
theorem test_wf_golay_degree :
    ({ defaultTables with
      golayG := 0x475, golayP := Vector.ofFn fun d => golayRule 0x475 (BitVec.ofNat 8 d.val) } : Tables).wf = false := by
  decide +kernel

/-! ### Host programs: expansions of 30_encoding.md R87 -/

theorem test_expand_ld24 : expand (.ld24 3 3100001) =
    [.access (.write 0x03 0x2F), .access (.write 0x04 0x4D), .access (.write 0x05 0x61)] := by decide
theorem test_expand_sdframe : expand (.sdframe 1 0x30 0x07 0xD6) =
    [.access (.write 0x00 0x01), .access (.write 0x01 0x30), .access (.write 0x02 0x07), .access (.write 0x03 0xD6),
      .access (.write 0xFF 0x0A)] := by decide
theorem test_expand_movob : expand (.movob 3 0 2) = [.copy 0x43 0x00, .copy 0x44 0x01] := by decide

/-! ### One step of each command -/

/-- 46_control.md R231, worked example. -/
theorem test_nop : runs 0x00 (base [1, 2]) { base [1, 2] with status := 0x00 } = true := by decide +kernel

/-- 95_test_vectors.md §2.1, the row of 0x11. -/
theorem test_golayEnc : runs 0x01 (base [0x11, 0xFF])
    { base [0x11, 0xFF] with obuf := buf 33 [0x11, 0xB8, 0xC0], status := 0x01 } = true := by decide +kernel

/-- 95_test_vectors.md §2.1, the row of 0xAA. -/
theorem test_golayEnc_high : runs 0x01 (base [0xAA])
    { base [0xAA] with obuf := buf 33 [0xAA, 0x1E, 0xF0], status := 0x01 } = true := by decide +kernel

/-- 95_test_vectors.md §2.4, the row of 01 .. 0C. -/
theorem test_bptcEnc : runs 0x02 (base [1, 2, 3, 4, 5, 6, 7, 8, 9, 10, 11, 12])
    { base [1, 2, 3, 4, 5, 6, 7, 8, 9, 10, 11, 12] with
      obuf := #v[0x06, 0xD1, 0x05, 0xF9, 0x00, 0xE8, 0x10, 0x53, 0x01, 0x22, 0xD2, 0x40, 0x80, 0, 0, 0, 0, 0, 0, 0, 0x00,
        0x78, 0x2B, 0x38, 0xCB, 0xC2, 0x09, 0x23, 0x0F, 0x9C, 0x14, 0x27, 0x04]
      status := 0x02 } = true := by decide +kernel

/-- 42_rs129.md R145, worked example. -/
theorem test_rsParity : runs 0x03 (base [1, 2, 3, 4, 5, 6, 7, 8, 9])
    { base [1, 2, 3, 4, 5, 6, 7, 8, 9] with obuf := buf 33 [0xBC, 0x70, 0x1F], status := 0x03 } = true := by
  decide +kernel

/-- 42_rs129.md R147, worked example. -/
theorem test_lcEnc : runs 0x04 (base [0, 0, 9, 0x2F, 0x4D, 0x61, 0xFF])
    { base [0, 0, 9, 0x2F, 0x4D, 0x61, 0xFF] with
      obuf := buf 33 [0, 0, 0, 0, 0, 9, 0x2F, 0x4D, 0x61, 0xC5, 0xAC, 0xCB], status := 0x04 } = true := by decide +kernel

/-- 43_header.md R161, worked example. -/
theorem test_hdrBuild : runs 0x05 (base [0, 0, 9, 0x2F, 0x4D, 0x61, 0x11])
    { base [0, 0, 9, 0x2F, 0x4D, 0x61, 0x11] with
      obuf := #v[0x03, 0x6E, 0x0E, 0x8A, 0x08, 0xFC, 0x1E, 0x40, 0x08, 0x30, 0x5D, 0xA0, 0xC4, 0x67, 0x55, 0xFD, 0x7D,
        0xF7, 0x5F, 0x7E, 0x31, 0xC4, 0x08, 0x08, 0x24, 0x90, 0x06, 0x60, 0x66, 0xC1, 0x58, 0x81, 0x73]
      status := 0x05 } = true := by decide +kernel

/-- 44_deinterleave.md R183, worked example. -/
theorem test_deintA : runs 0x06 (base [1, 2, 3, 4, 5, 6, 7, 8, 9])
    { base [1, 2, 3, 4, 5, 6, 7, 8, 9] with frame := #v[0x006424, 0x100818, 0x000044, 0x000189], status := 0x06 } =
      true := by decide +kernel

/-- 44_deinterleave.md R186, worked example. -/
theorem test_deintB : runs 0x07 (base [1, 2, 3, 4, 5, 6, 7, 8, 9])
    { base [1, 2, 3, 4, 5, 6, 7, 8, 9] with frame := #v[0x000140, 0x2A80A0, 0x000504, 0x001111], status := 0x07 } =
      true := by decide +kernel

/-- IBUF[i] = i, as 44_deinterleave.md R188's worked example has it. -/
def counting (nib : Bool) : State :=
  { base [] with ibuf := Vector.ofFn fun i => BitVec.ofNat 8 i.val, demuxNib := nib }

/-- The output of that example, with `b` at byte 13. -/
def countingOut (b : Byte) : Vector Byte 33 :=
  #v[0x00, 0x01, 0x02, 0x03, 0x04, 0x05, 0x06, 0x07, 0x08, 0x09, 0x0A, 0x0B, 0x0C, b, 0x14, 0x15, 0x16, 0x17, 0x18, 0x19,
    0x1A, 0x1B, 0x1C, 0x1D, 0x1E, 0x1F, 0x20, 0, 0, 0, 0, 0, 0]

/-- 44_deinterleave.md R188, worked example, DEMUX_NIB = 0. -/
theorem test_dmrDemux_high : runs 0x08 (counting false)
    { counting false with obuf := countingOut 0x01, status := 0x08 } = true := by decide +kernel

/-- 44_deinterleave.md R188, worked example, DEMUX_NIB = 1. -/
theorem test_dmrDemux_low : runs 0x08 (counting true)
    { counting true with obuf := countingOut 0x03, status := 0x08 } = true := by decide +kernel

/-- 45_slowdata.md R211, worked example: in Armed(5). -/
theorem test_sdReset : runs 0x09 { armed .s5 [1, 2, 3] [] with sdTvalid := true }
    { base [] with sdCtl := .disarmed, sdBuf := zeroBytes 20, status := 0x09 } = true := by decide +kernel

/-- 45_slowdata.md R210, worked example: in Armed(1), 01 30 07 D6 gives "HE". -/
theorem test_sdFrame_step : runs 0x0A (armed .s1 [] [0x01, 0x30, 0x07, 0xD6])
    { armed .s2 [0x48, 0x45] [0x01, 0x30, 0x07, 0xD6] with status := 0x4A } = true := by decide +kernel

/-- 45_slowdata.md R206: a wrong marker disarms, MARKER_FAIL. -/
theorem test_sdFrame_marker : runs 0x0A (armed .s3 [1, 2, 3, 4, 5] [0x03, 0x30, 0x07, 0xD6])
    { base [0x03, 0x30, 0x07, 0xD6] with status := 0x8A } = true := by decide +kernel

/-- The default tables with another marker for step 1. -/
def otherMarker : Tables := { defaultTables with sdMarker := defaultTables.sdMarker.set 0 0x55 }

/-- 00_scope.md R7: a block built with that marker takes 0x55 ^ 0x70 = 0x25 where the default block disarms. -/
theorem test_stepWith_marker :
    (match stepWith otherMarker ((armed .s1 [] [0x01, 0x25, 0x07, 0xD6]).withFetchWord 8 0x0A) with
      | .next t => decide (t = { armed .s2 [0x48, 0x45] [0x01, 0x25, 0x07, 0xD6] with status := 0x4A })
      | _ => false) = true := by decide +kernel

/-- 60_exceptions.md R240: the illegal word 0x2B leaves 0x1B in STATUS. -/
theorem test_illegal : runs 0x2B (base [7]) { base [7] with status := 0x1B } = true := by decide +kernel

/-! ### Witnesses: a state and operands that meet the hypotheses of each obligation that has any -/

theorem witness_IllegalWords : IsIllegalWord 0x0B ∧ IsIllegalWord 0x0F ∧ IsIllegalWord 0x10 ∧ IsIllegalWord 0xFF ∧
    ¬ IsIllegalWord 0x0A := by unfold IsIllegalWord; decide

/-- A step of `Tests.base` on one CMD write. -/
def issuing (w : Byte) (s : State) : State := awaiting s [.write 0xFF w]

theorem witness_StepRunsDecodedCommand :
    (issuing 0x0A (base [])).pending = .write 0xFF 0x0A :: [] ∧ decode 0x0A = .ok .sdFrame := ⟨rfl, by decide⟩

theorem witness_StepTakesIllegalCommand :
    (issuing 0xF3 (base [])).pending = .write 0xFF 0xF3 :: [] ∧ IsIllegalWord 0xF3 :=
  ⟨rfl, by unfold IsIllegalWord; decide⟩

theorem witness_HostReadHasNoSideEffect : (awaiting (base []) [.read 0xF0]).pending = .read 0xF0 :: [] := rfl

theorem witness_IdleBlockStaysPut : State.reset.pending = [] := rfl

theorem witness_UnmappedAndReadOnly :
    (∀ a ∈ ([0x21, 0x3F, 0x61, 0x7F, 0x8C, 0x8F, 0x91, 0x9F, 0xB4, 0xBF, 0xD5, 0xDF, 0xE1, 0xE7, 0xEF, 0xF1, 0xFE] :
      List Byte), IsUnmapped a.toNat) ∧
    ∀ a ∈ ([0x40, 0x60, 0x80, 0x8B, 0x90, 0xA0, 0xB3, 0xC0, 0xD4, 0xF0] : List Byte), IsReadOnly a.toNat := by
  unfold IsUnmapped IsReadOnly; decide

theorem witness_MemReadFollowsTheMap : IsUnmapped (0x21 : Byte).toNat ∧ IsUnmapped (0xFE : Byte).toNat := by
  unfold IsUnmapped; decide

theorem witness_ReadAfterWrite : ∀ a ∈ ([0x00, 0x20, 0xE8, 0xEE] : List Byte),
    a.toNat ≤ 0x20 ∨ (0xE8 ≤ a.toNat ∧ a.toNat ≤ 0xEE) := by decide

theorem witness_ResetEvent : (awaiting (base [1]) [.reset]).pending = .reset :: [] := rfl

/-- Where a command issued at `s` changes what address `a` reads. -/
def changes (w : Byte) (s : State) (a : Byte) : Bool :=
  match execute w s with
  | .next t => decide (memRead a t ≠ memRead a s)
  | _ => false

theorem witness_CommandsWriteOnlyTheirColumn :
    changes 0x00 (base []) 0xF0 = true ∧ changes 0x0B (base []) 0xF0 = true ∧ changes 0x01 (base [0x11]) 0x40 = true ∧
    changes 0x08 (base []) 0x60 = true ∧ changes 0x06 (base []) 0x80 = true ∧ changes 0x07 (base []) 0x8B = true ∧
    changes 0x09 (armed .s5 [1] []) 0x90 = true ∧ changes 0x0A (armed .s1 [] [0x01, 0x30, 0x07, 0xD6]) 0xA0 = true ∧
    changes 0x0A (armed .s8 [1] [0x08]) 0xC0 = true := by decide +kernel

theorem witness_ResultsForgetEarlierResults :
    producesBytes .golayEnc = true ∧ producesBytes .bptcEnc = true ∧ producesBytes .rsParity = true ∧
    producesBytes .lcEnc = true ∧ producesBytes .hdrBuild = true ∧ producesBytes .dmrDemux = true := by decide

theorem witness_ResultsForget_keep : producesBytes .nop = false ∧ producesBytes .deintA = false ∧
    producesBytes .deintB = false ∧ producesBytes .sdReset = false ∧ producesBytes .sdFrame = false ∧
    ∀ i ∈ ([.nop, .golayEnc, .bptcEnc, .rsParity, .lcEnc, .hdrBuild, .dmrDemux, .sdReset, .sdFrame] : List Instr),
      i ≠ .deintA ∧ i ≠ .deintB := by decide

theorem witness_UnreadOperandBytes :
    (∀ k : Fin 33, k.val < readsBelow .hdrBuild →
      (buf 33 [0, 0, 9, 1, 2, 3, 0x11, 0xEE])[k.val] = (base [0, 0, 9, 1, 2, 3, 0x11]).ibuf[k.val]) ∧
    buf 33 [0, 0, 9, 1, 2, 3, 0x11, 0xEE] ≠ (base [0, 0, 9, 1, 2, 3, 0x11]).ibuf := by decide +kernel

theorem witness_OtherCommandsIgnoreTheAssembler :
    ∀ i ∈ ([.nop, .golayEnc, .bptcEnc, .rsParity, .lcEnc, .hdrBuild, .deintA, .deintB, .dmrDemux] : List Instr),
      i ≠ .sdReset ∧ i ≠ .sdFrame := by decide

theorem witness_GolayMinimumDistanceEight : (0x00 : Byte) ≠ 0x01 := by decide

theorem witness_GolayEncResult : (base [0x11]).ibuf[0] = 0x11 := by decide +kernel

theorem witness_BptcEncIsLinear : ∀ i : Fin 12,
    (base [0x80, 0xFF]).ibuf[i.val] = (base [0x80, 0x0F]).ibuf[i.val] ^^^ (base [0x00, 0xF0]).ibuf[i.val] := by
  decide +kernel

theorem witness_BptcMinimumWeightNine : ∃ i : Fin 12, (buf 12 [0x80])[i.val] ≠ 0x00 := ⟨0, by decide +kernel⟩

theorem witness_RsParityIsLinear : ∀ i : Fin 9,
    (base [0x80, 0xFF]).ibuf[i.val] = (base [0x80, 0x0F]).ibuf[i.val] ^^^ (base [0x00, 0xF0]).ibuf[i.val] := by
  decide +kernel

theorem witness_HdrBuildProvenance :
    ∃ (lc : State) (v : Vector Byte 33), exec .lcEnc (base [0, 0, 9]) = .next lc ∧ ∀ i : Fin 12, v[i.val] = lc.obuf[i.val] :=
  ⟨_, _, rfl, fun _ => rfl⟩

theorem witness_HdrBuildIsInjective :
    ∃ t t', (base [0, 0, 9, 1, 2, 3, 0x11]).syncpat = (base [0, 0, 9, 1, 2, 3, 0x11, 0xEE]).syncpat ∧
      exec .hdrBuild (base [0, 0, 9, 1, 2, 3, 0x11]) = .next t ∧
      exec .hdrBuild (base [0, 0, 9, 1, 2, 3, 0x11, 0xEE]) = .next t' ∧ t.obuf = t'.obuf :=
  ⟨_, _, rfl, rfl, rfl, by decide +kernel⟩

/-- FRAME[1][23] is named by neither family. -/
theorem witness_DeintAResult : ∀ k : Fin 72, (defaultTables.tabAW[k.val], defaultTables.tabAX[k.val]) ≠ (1, 23) := by
  decide +kernel

theorem witness_DeintBResult : ∀ k : Fin 36, (defaultTables.tabBW[k.val], defaultTables.tabBX[k.val]) ≠ (1, 23) ∧
    (defaultTables.tabBY[k.val], defaultTables.tabBZ[k.val]) ≠ (1, 23) := by decide +kernel

theorem witness_DeinterleaversAreInvertible : defaultTables.cellsA.Nodup ∧ defaultTables.cellsB.Nodup ∧
    deinterleaveA defaultTables (buf 9 [1]) = deinterleaveA defaultTables (buf 9 [1]) ∧
    deinterleaveB defaultTables (buf 9 [1]) = deinterleaveB defaultTables (buf 9 [1]) :=
  ⟨by decide +kernel, by decide +kernel, rfl, rfl⟩

/-- The default tables with the cells of stream bits 0 and 1, and of dibits 0 and 1, exchanged. -/
def exchanged : Tables :=
  { defaultTables with
    tabAX := (defaultTables.tabAX.set 0 22).set 1 10
    tabBW := (defaultTables.tabBW.set 0 1).set 1 0
    tabBX := (defaultTables.tabBX.set 0 10).set 1 23 }

/-- A second configuration that names no cell twice, and is not the default one. -/
theorem witness_DeinterleaversAreInvertible_other :
    exchanged.cellsA.Nodup ∧ exchanged.cellsB.Nodup ∧ exchanged.tabAX ≠ defaultTables.tabAX := by decide +kernel

theorem witness_DmrDemuxResult : (counting false).demuxNib = false ∧ (counting true).demuxNib = true ∧
    (∀ i : Fin 33, (counting false).ibuf[i.val] = BitVec.ofNat 8 i.val) ∧
    (∀ i : Fin 33, (counting true).ibuf[i.val] = BitVec.ofNat 8 i.val) := by decide +kernel

theorem witness_SdResetResult : sdArmed (base []) = false ∧ (base []).sdTvalid = false ∧
    ∀ i : Fin 20, (base []).sdBuf[i.val] = 0x00 := by decide +kernel

/-! The seven cases of SD_FRAME's transition table. -/

theorem witness_SdFrame_sync : HoldsSyncFrame (base [0x00, 0x55, 0x2D, 0x16]) ∧
    HoldsSyncFrame (armed .s8 [1] [0x00, 0x55, 0x2D, 0x16]) := by unfold HoldsSyncFrame; decide +kernel

theorem witness_SdFrame_disarmed : ¬ HoldsSyncFrame (base [0x00, 0x55, 0x2D, 0x17]) ∧
    sdArmed (base [0x00, 0x55, 0x2D, 0x17]) = false := by unfold HoldsSyncFrame; decide +kernel

theorem witness_SdFrame_ignore : ¬ HoldsSyncFrame (armed .s1 [] [0x11]) ∧ sdArmed (armed .s1 [] [0x11]) = true ∧
    (armed .s1 [] [0x11]).ibuf[0].toNat ≠ (sdStep (armed .s1 [] [0x11])).toNat ∧ (armed .s1 [] [0x11]).sdSkip = false := by
  unfold HoldsSyncFrame; decide +kernel

/-- SD_SKIP = 1. -/
def skipping (s : State) : State := { s with sdSkip := true }

theorem witness_SdFrame_disarm : ¬ HoldsSyncFrame (skipping (armed .s8 [1] [0x09])) ∧
    sdArmed (skipping (armed .s8 [1] [0x09])) = true ∧
    (skipping (armed .s8 [1] [0x09])).ibuf[0].toNat ≠ (sdStep (skipping (armed .s8 [1] [0x09]))).toNat ∧
    (skipping (armed .s8 [1] [0x09])).sdSkip = true := by unfold HoldsSyncFrame; decide +kernel

theorem witness_SdFrame_marker : HoldsExpectedStep (armed .s7 [1] [0x07, 0x30]) ∧
    ¬ MarkerHolds (sdStep (armed .s7 [1] [0x07, 0x30])).toNat (armed .s7 [1] [0x07, 0x30]) := by
  unfold HoldsExpectedStep MarkerHolds; decide +kernel

theorem witness_SdFrame_step :
    (HoldsExpectedStep (armed .s1 [] [0x01, 0x30]) ∧
      MarkerHolds (sdStep (armed .s1 [] [0x01, 0x30])).toNat (armed .s1 [] [0x01, 0x30]) ∧
      (sdStep (armed .s1 [] [0x01, 0x30])).toNat ≤ 7) ∧
    (HoldsExpectedStep (armed .s7 [1] [0x07, 0x33]) ∧
      MarkerHolds (sdStep (armed .s7 [1] [0x07, 0x33])).toNat (armed .s7 [1] [0x07, 0x33]) ∧
      (sdStep (armed .s7 [1] [0x07, 0x33])).toNat ≤ 7) := by
  unfold HoldsExpectedStep MarkerHolds; decide +kernel

theorem witness_SdFrame_emit : HoldsExpectedStep (armed .s8 [1] [0x08]) ∧ sdStep (armed .s8 [1] [0x08]) = 8 := by
  unfold HoldsExpectedStep; decide +kernel

/-! Whole-machine properties of the assembler. -/

/-- Armed(8), about to emit. -/
def emitting : State := issuing 0x0A (armed .s8 [0x48] [0x08, 0x70, 0x4F, 0x93])

/-- Emitted text in SD_TEXT, and `x` pending. -/
def holdingText (x : Input) : State := awaiting { base [] with sdText := buf 21 [0x48], sdTvalid := true } [x]

theorem witness_TextChangesOnlyOnEmit :
    step emitting = .next (stepTo emitting) ∧ (stepTo emitting).sdText ≠ emitting.sdText ∧
    step (holdingText .reset) = .next (resetBlock (awaiting (holdingText .reset) [])) ∧
    (resetBlock (awaiting (holdingText .reset) [])).sdText ≠ (holdingText .reset).sdText :=
  ⟨step_of_goesTo (by decide +kernel), by decide +kernel, rfl, by decide +kernel⟩

theorem witness_Tvalid_set : step emitting = .next (stepTo emitting) ∧ emitting.sdTvalid = false ∧
    (stepTo emitting).sdTvalid = true ∧ Issues emitting 0x0A ∧ statusSdEv (stepTo emitting).status = 3 :=
  ⟨step_of_goesTo (by decide +kernel), by decide +kernel, by decide +kernel, by unfold Issues; decide +kernel,
    by decide +kernel⟩

theorem witness_Tvalid_cleared :
    step (holdingText (.write 0xFF 0x09)) = .next (stepTo (holdingText (.write 0xFF 0x09))) ∧
    (holdingText (.write 0xFF 0x09)).sdTvalid = true ∧ (stepTo (holdingText (.write 0xFF 0x09))).sdTvalid = false ∧
    Issues (holdingText (.write 0xFF 0x09)) 0x09 ∧ Resets (holdingText .reset) :=
  ⟨step_of_goesTo (by decide +kernel), by decide +kernel, by decide +kernel, by unfold Issues; decide +kernel,
    by unfold Resets; decide +kernel⟩

/-- Disarmed, about to be given a sync frame. -/
def syncing : State := issuing 0x0A (base [0x00, 0x55, 0x2D, 0x16])

theorem witness_DisarmedUntilSync :
    step syncing = .next (stepTo syncing) ∧ sdArmed syncing = false ∧ sdArmed (stepTo syncing) = true :=
  ⟨step_of_goesTo (by decide +kernel), by decide +kernel, by decide +kernel⟩

theorem witness_ArmedLeavesOnlyBy :
    step emitting = .next (stepTo emitting) ∧ sdArmed emitting = true ∧ emitting.sdSkip = false ∧
    (stepTo emitting).sdCtl ≠ emitting.sdCtl :=
  ⟨step_of_goesTo (by decide +kernel), by decide +kernel, by decide +kernel, by decide +kernel⟩

/-- One wrong marker, in each of the four places. -/
theorem witness_WrongMarkerFailsClosed :
    ((0x41 : Byte) ≠ 0x40 ∨ (0x41 : Byte) ≠ 0x41 ∨ (0x42 : Byte) ≠ 0x42 ∨ (0x43 : Byte) ≠ 0x43) ∧
    ((0x40 : Byte) ≠ 0x40 ∨ (0x40 : Byte) ≠ 0x41 ∨ (0x42 : Byte) ≠ 0x42 ∨ (0x43 : Byte) ≠ 0x43) ∧
    ((0x40 : Byte) ≠ 0x40 ∨ (0x41 : Byte) ≠ 0x41 ∨ (0xC2 : Byte) ≠ 0x42 ∨ (0x43 : Byte) ≠ 0x43) ∧
    ((0x40 : Byte) ≠ 0x40 ∨ (0x41 : Byte) ≠ 0x41 ∨ (0x42 : Byte) ≠ 0x42 ∨ (0x00 : Byte) ≠ 0x43) := by decide

/-- The host's accesses of one message, each byte written only where it changes. -/
def message : List Input :=
  [.write 0xFF 0x0A, .write 0 1, .write 1 0x30, .write 0xFF 0x0A, .write 0 2, .write 0xFF 0x0A, .write 0 3,
    .write 1 0x31, .write 0xFF 0x0A, .write 0 4, .write 0xFF 0x0A, .write 0 5, .write 1 0x32, .write 0xFF 0x0A,
    .write 0 6, .write 0xFF 0x0A, .write 0 7, .write 1 0x33, .write 0xFF 0x0A, .write 0 8, .write 0xFF 0x0A]

/-- The observer's record along `n` steps. -/
def observe : Nat → State → StepLog → State × StepLog
  | 0, s, log => (s, log)
  | n + 1, s, log => observe n (stepTo s) (nextLog s (stepTo s) log)

/-- Every one of `n` steps goes on. -/
def allGo : Nat → State → Bool
  | 0, _ => true
  | n + 1, s => goesTo s (stepTo s) && allGo n (stepTo s)

theorem recorded_observe (n : Nat) (s : State) (log : StepLog) (h : Recorded s log) (hg : allGo n s = true) :
    Recorded (observe n s log).1 (observe n s log).2 := by
  induction n generalizing s log with
  | zero => exact h
  | succ n ih =>
    rw [allGo, Bool.and_eq_true] at hg
    exact ih _ _ (.step s _ log h (step_of_goesTo hg.1)) hg.2

/-- The block before the message, and the block and the observer's record before the emission. -/
def beforeMessage : State := awaiting (base [0x00, 0x55, 0x2D, 0x16]) message

/-- The emission's own step is the 21st access; 20 steps lead to it. -/
theorem witness_EmittedTextIsTheAcceptedBytes :
    Recorded (observe 20 beforeMessage none).1 (observe 20 beforeMessage none).2 ∧
    step (observe 20 beforeMessage none).1 = .next (stepTo (observe 20 beforeMessage none).1) ∧
    Issues (observe 20 beforeMessage none).1 0x0A ∧
    statusSdEv (stepTo (observe 20 beforeMessage none).1).status = 3 :=
  ⟨recorded_observe 20 _ _ (.start _ (by decide +kernel)) (by decide +kernel), step_of_goesTo (by decide +kernel),
    by unfold Issues; decide +kernel, by decide +kernel⟩

/-- A state inside the invariant that is not the reset state, and its step. -/
theorem witness_StepKeepsAssemblerInvariant :
    AssemblerInvariant (issuing 0x0A (armed .s2 [0x48, 0x45] [0x02, 0x3C])) ∧
    step (issuing 0x0A (armed .s2 [0x48, 0x45] [0x02, 0x3C])) =
      .next (stepTo (issuing 0x0A (armed .s2 [0x48, 0x45] [0x02, 0x3C]))) := by
  refine ⟨⟨fun h => absurd h (by decide +kernel), fun _ => by decide +kernel, fun n hn i hi => ?_⟩,
    step_of_goesTo (by decide +kernel)⟩
  cases (show SdCtl.armed .s2 = .armed n from hn)
  revert i
  decide +kernel

/-- Another configuration, and a state inside the invariant, that `stepWith` takes on. -/
theorem witness_StepKeepsAssemblerInvariant_anyTables :
    ∃ t, stepWith otherMarker (issuing 0x0A (armed .s2 [0x48, 0x45] [0x02, 0x3C])) = .next t := ⟨_, rfl⟩

/-- Two configurations that agree on every table but the slow-data markers, and two that agree on those alone of the
tables a command names. -/
theorem witness_CommandsReadOnlyTheirTables :
    (defaultTables.golayP = otherMarker.golayP ∧ defaultTables.bptcSlots = otherMarker.bptcSlots ∧
      defaultTables.hamRow = otherMarker.hamRow ∧ defaultTables.hamCol = otherMarker.hamCol ∧
      defaultTables.bptcIlv = otherMarker.bptcIlv ∧ defaultTables.bptcIlvMod = otherMarker.bptcIlvMod ∧
      defaultTables.gfPrim = otherMarker.gfPrim ∧ defaultTables.rsGen = otherMarker.rsGen ∧
      defaultTables.tabAW = otherMarker.tabAW ∧ defaultTables.tabAX = otherMarker.tabAX ∧
      defaultTables.tabBW = otherMarker.tabBW ∧ defaultTables.tabBX = otherMarker.tabBX ∧
      defaultTables.tabBY = otherMarker.tabBY ∧ defaultTables.tabBZ = otherMarker.tabBZ ∧
      defaultTables.sdMarker ≠ otherMarker.sdMarker) ∧
    defaultTables.sdMarker = exchanged.sdMarker ∧ defaultTables.tabAX ≠ exchanged.tabAX :=
  ⟨⟨rfl, rfl, rfl, rfl, rfl, rfl, rfl, rfl, rfl, rfl, rfl, rfl, rfl, rfl, by decide +kernel⟩, rfl, by decide +kernel⟩

/-- Armed(2) after step 1, with the record of it. -/
theorem witness_StepKeepsTheRecordInvariant :
    RecordInvariant (issuing 0x0A (armed .s2 [0x48, 0x45] [0x02, 0x3C])) (some [(1, [0x48, 0x45])]) ∧
    step (issuing 0x0A (armed .s2 [0x48, 0x45] [0x02, 0x3C])) =
      .next (stepTo (issuing 0x0A (armed .s2 [0x48, 0x45] [0x02, 0x3C]))) :=
  ⟨by unfold RecordInvariant; decide +kernel, step_of_goesTo (by decide +kernel)⟩

theorem witness_LdiLoadsIbuf : (HostLine.ldi 0 [1]).wf = true ∧ (HostLine.ldi 0x20 [1]).wf = true ∧
    (HostLine.ldi 0 (List.replicate 33 1)).wf = true := by decide

theorem witness_MovobCopiesObufIntoIbuf : (HostLine.movob 0 0 33).wf = true ∧ (HostLine.movob 32 0 1).wf = true ∧
    (HostLine.movob 0 32 1).wf = true ∧ (HostLine.movob 33 33 0).wf = true := by decide

end Sys2Proof.Tests
end

section
/-! PROOFS. The state (10_state.md). First the layer of facts: the encoding, the end of a command, what each command may
write, and what a step does to the assembler's registers, for any tables. Then the obligations on the assembler's
invariant (R50), CFG (R40), STATUS (R45, R46), SD_TVALID (R39) and the reset values (R54). -/

namespace Sys2Proof.Machine

/-! ### Command words -/

/-- A command word is its two fields, RSV above OP (30_encoding.md R80). -/
theorem toNat_eq_rsvField_opField (w : Byte) : w.toNat = 16 * (rsvField w).toNat + (opField w).toNat := by
  simp only [rsvField, opField, BitVec.extractLsb'_toNat, Nat.shiftRight_eq_div_pow]
  omega

/-- The word of a command decodes to it (30_encoding.md R82, R84). -/
theorem decode_encode (i : Instr) : decode (encode i) = .ok i := by cases i <;> rfl

/-- A word that decodes to a command is that command's word (30_encoding.md R82, R84). -/
theorem encode_of_decode_eq_ok {w : Byte} {i : Instr} (h : decode w = .ok i) : encode i = w := by
  unfold decode at h
  split at h
  case isTrue => contradiction
  case isFalse hrsv =>
    have hw : w.toNat = (opField w).toNat := by
      rw [toNat_eq_rsvField_opField w, not_not.1 hrsv]
      simp
    split at h
    case h_12 => contradiction
    all_goals
      next hop =>
        cases h
        exact BitVec.eq_of_toNat_eq (hw.trans hop).symm

/-- Different commands have different words (30_encoding.md R82). -/
theorem encode_injective : Function.Injective encode := fun i j h =>
  Except.ok.inj ((decode_encode i).symm.trans (h ▸ decode_encode j))

/-- The decoder refuses exactly the illegal words of 30_encoding.md R83. -/
theorem isIllegalWord_iff (w : Byte) : IsIllegalWord w ↔ ∃ e, decode w = .error e := by
  constructor
  · intro h
    match hd : decode w with
    | .error e => exact ⟨e, rfl⟩
    | .ok i =>
      have hlegal : ¬ IsIllegalWord (encode i) := by cases i <;> simp [IsIllegalWord, encode]
      exact absurd (encode_of_decode_eq_ok hd ▸ h) hlegal
  · rintro ⟨e, h⟩
    unfold decode at h
    split at h
    case isTrue hrsv => exact .inl hrsv
    case isFalse =>
      split at h
      case h_12 =>
        right
        change 11 ≤ (opField w).toNat
        by_contra hlt
        interval_cases (opField w).toNat <;> contradiction
      all_goals contradiction

/-! ### Commands, for any tables -/

/-- The nine commands outside the assembler write OBUF, FRAME and STATUS at most (30_encoding.md R82), and leave their own
word in STATUS. -/
theorem execWith_other (T : Tables) (i : Instr) (s : State) (hReset : i ≠ .sdReset) (hFrame : i ≠ .sdFrame) :
    ∃ o f, execWith T i s = .next { s with obuf := o, frame := f, status := encode i } := by
  cases i with
  | nop => exact ⟨_, _, rfl⟩
  | golayEnc => exact ⟨_, _, execWith_golayEnc T s⟩
  | bptcEnc => exact ⟨_, _, execWith_bptcEnc T s⟩
  | rsParity => exact ⟨_, _, execWith_rsParity T s⟩
  | lcEnc => exact ⟨_, _, execWith_lcEnc T s⟩
  | hdrBuild => exact ⟨_, _, execWith_hdrBuild T s⟩
  | deintA => exact ⟨_, _, execWith_deintA T s⟩
  | deintB => exact ⟨_, _, execWith_deintB T s⟩
  | dmrDemux => exact ⟨_, _, exec_dmrDemux s⟩
  | sdReset => exact absurd rfl hReset
  | sdFrame => exact absurd rfl hFrame

/-- SD_RESET reads no table (45_slowdata.md R211). -/
theorem execWith_sdReset (T : Tables) (s : State) :
    execWith T .sdReset s =
      .next { s with sdCtl := .disarmed, sdBuf := zeroBytes 20, sdTvalid := false, status := 0x09 } := exec_sdReset s

/-- Every command answers a next state and writes only results, the assembler's registers and STATUS
(30_encoding.md R82). -/
theorem execWith_frame (T : Tables) (i : Instr) (s : State) :
    ∃ o f c b x tv st, execWith T i s =
      .next { s with obuf := o, frame := f, sdCtl := c, sdBuf := b, sdText := x, sdTvalid := tv, status := st } := by
  by_cases hReset : i = .sdReset
  · exact ⟨_, _, _, _, _, _, _, hReset ▸ execWith_sdReset T s⟩
  · by_cases hFrame : i = .sdFrame
    · rw [hFrame, execWith_sdFrame, presentFrame_frame]
      exact ⟨_, _, _, _, _, _, _, rfl⟩
    · obtain ⟨o, f, h⟩ := execWith_other T i s hReset hFrame
      exact ⟨o, f, _, _, _, _, _, h⟩

/-- A legal word runs its command (46_control.md R230), which is the configured one at the default tables. -/
theorem execute_of_decode_ok {w : Byte} {i : Instr} (h : decode w = .ok i) (s : State) :
    execute w s = execWith defaultTables i s := by
  rw [← exec_eq_execWith, execute, executeBy, h]

/-- An illegal word takes IllegalCommand (46_control.md R230, 60_exceptions.md R240). -/
theorem execute_of_decode_error {w : Byte} {e : DecodeError} (h : decode w = .error e) (s : State) :
    execute w s = .next { s with status := statusWord .none true (opField w) } := by
  rw [← raiseIllegalCommand_eq, execute, executeBy, h]

/-- A command word answers a next state and writes only results, the assembler's registers and STATUS. -/
theorem execute_frame (w : Byte) (s : State) :
    ∃ o f c b x tv st, execute w s =
      .next { s with obuf := o, frame := f, sdCtl := c, sdBuf := b, sdText := x, sdTvalid := tv, status := st } := by
  match hd : decode w with
  | .ok i => exact execute_of_decode_ok hd s ▸ execWith_frame defaultTables i s
  | .error e => exact ⟨_, _, _, _, _, _, _, execute_of_decode_error hd s⟩

/-! ### The events of SD_EV -/

/-- The code 0 is NONE's alone (10_state.md R47). -/
theorem SdEvent.code_eq_zero_iff (ev : SdEvent) : ev.code = 0 ↔ ev = .none := by cases ev <;> decide

/-- The code 3 is EMIT's alone (10_state.md R47). -/
theorem SdEvent.code_eq_three_iff (ev : SdEvent) : ev.code = 3 ↔ ev = .emit := by cases ev <;> decide

/-- Every frame presented is an event (45_slowdata.md R212). -/
theorem presentFrame_event_ne_none (T : Tables) (seq : Byte) (a : Vector Byte 3) (s : State) :
    (presentFrame T seq a s).2 ≠ .none := by
  rcases presentFrame_cases T seq a s with ⟨_, h⟩ | ⟨_, _, h⟩ | ⟨n, _, _, _, _, h⟩ | ⟨n, _, _, _, _, h⟩ |
    ⟨n, _, _, _, _, h⟩ | ⟨n, n', _, _, _, _, _, h⟩ | ⟨n, _, _, _, _, _, h⟩ <;> simp [h]

/-- A frame leaves SD_TVALID as it was, unless it emits: then SD_TVALID is 1 (10_state.md R39). -/
theorem presentFrame_sdTvalid (T : Tables) (seq : Byte) (a : Vector Byte 3) (s : State) :
    (presentFrame T seq a s).1.sdTvalid =
      if (presentFrame T seq a s).2 = .emit then true else s.sdTvalid := by
  rcases presentFrame_cases T seq a s with ⟨_, h⟩ | ⟨_, _, h⟩ | ⟨n, _, _, _, _, h⟩ | ⟨n, _, _, _, _, h⟩ |
    ⟨n, _, _, _, _, h⟩ | ⟨n, n', _, _, _, _, _, h⟩ | ⟨n, _, _, _, _, _, h⟩ <;>
    simp [h, armOnSync_eq, disarm_eq, emitText_eq]

/-- Every command ends with its STATUS write, and its event is NONE for every command but SD_FRAME (10_state.md R44 to
R47). -/
theorem execWith_finish (T : Tables) (i : Instr) (s : State) :
    ∃ ev u, execWith T i s = .next (finish i ev u) ∧ (ev = .none ↔ i ≠ .sdFrame) := by
  cases i with
  | sdFrame => exact ⟨_, _, rfl, by simp [presentFrame_event_ne_none]⟩
  | _ => exact ⟨.none, _, rfl, by simp⟩

/-! ### The next input -/

/-- A host write issues a word when it goes to CMD and carries that word (10_state.md R48). -/
theorem issues_iff_of_pending_write {s : State} {a v : Byte} {rest : List Input} (hp : s.pending = .write a v :: rest)
    (w : Byte) : Issues s w ↔ a = 0xFF ∧ v = w := by
  simp [Issues, hp]

/-- A step that issues SD_FRAME is no reset and issues no SD_RESET: the host has one next access. -/
theorem not_resets_or_issues_sdReset {s : State} (h : Issues s 0x0A) : ¬ (Resets s ∨ Issues s 0x09) := by
  unfold Resets Issues
  rw [h]
  decide

/-! ### What a step does to the assembler -/

/-- The assembler's registers, SD_STATE, SD_BUF and SD_TEXT (10_state.md R35 to R39), are the same in both states. -/
def SameAssembler (s t : State) : Prop :=
  t.sdCtl = s.sdCtl ∧ t.sdBuf = s.sdBuf ∧ t.sdText = s.sdText ∧ t.sdTvalid = s.sdTvalid

/-- Everything a step can do to the assembler, for any tables: SD_FRAME presents a frame, SD_RESET and the reset event
clear it, and no other input touches it (45_slowdata.md R210, R211, 70_reset_and_hazards.md R260). -/
theorem stepWith_assembler_cases {T : Tables} {s t : State} (h : stepWith T s = .next t) :
    (¬ Resets s ∧ (∀ w, Issues s w → w ≠ 0x09 ∧ w ≠ 0x0A) ∧ SameAssembler s t) ∨
    (Resets s ∧ ∃ rest, t = resetBlock (s.withPending rest)) ∨
    (Issues s 0x09 ∧ ∃ rest, t = { s with
      sdCtl := .disarmed, sdBuf := zeroBytes 20, sdTvalid := false, pending := rest, status := 0x09 }) ∨
    (Issues s 0x0A ∧ ∃ rest r, r = presentFrame T (operandSeq s) (operandAux s) (s.withPending rest) ∧
      t = { r.1 with status := statusWord r.2 false 0xA }) := by
  rcases stepBy_cases h with ⟨hp, ht⟩ | ⟨a, rest, hp, ht⟩ | ⟨a, v, rest, hp, ha, ht⟩ |
    ⟨a, w, i, rest, hp, ha, hd, ht⟩ | ⟨a, w, e, rest, hp, ha, hd, ht⟩ | ⟨rest, hp, ht⟩
  · exact .inl ⟨by simp [Resets, hp], by simp [Issues, hp], by simp [SameAssembler, ht]⟩
  · exact .inl ⟨by simp [Resets, hp], by simp [Issues, hp], by simp [SameAssembler, ht, hostRead]⟩
  · refine .inl ⟨by simp [Resets, hp], fun w hw => ?_, ?_⟩
    · exact absurd ((region_eq_cmd_iff a).2 ((issues_iff_of_pending_write hp w).1 hw).1) ha
    · rw [ht, writeRegion_frame]
      exact ⟨rfl, rfl, rfl, rfl⟩
  · cases (region_eq_cmd_iff a).1 ha
    cases encode_of_decode_eq_ok hd
    by_cases hReset : i = .sdReset
    · subst hReset
      rw [execWith_sdReset] at ht
      exact .inr (.inr (.inl ⟨(issues_iff_of_pending_write hp _).2 ⟨rfl, rfl⟩, rest,
        (Host.Outcome.next.inj ht).symm⟩))
    · by_cases hFrame : i = .sdFrame
      · subst hFrame
        rw [execWith_sdFrame] at ht
        exact .inr (.inr (.inr ⟨(issues_iff_of_pending_write hp _).2 ⟨rfl, rfl⟩, rest, _, rfl,
          (Host.Outcome.next.inj ht).symm⟩))
      · obtain ⟨o, f, hi⟩ := execWith_other T i (s.withPending rest) hReset hFrame
        refine .inl ⟨by simp [Resets, hp], fun w hw => ?_, ?_⟩
        · obtain ⟨-, rfl⟩ := (issues_iff_of_pending_write hp w).1 hw
          exact ⟨fun h9 => hReset (encode_injective h9), fun hA => hFrame (encode_injective hA)⟩
        · rw [← Host.Outcome.next.inj (hi.symm.trans ht)]
          exact ⟨rfl, rfl, rfl, rfl⟩
  · refine .inl ⟨by simp [Resets, hp], fun w' hw => ?_, ?_⟩
    · obtain ⟨-, rfl⟩ := (issues_iff_of_pending_write hp w').1 hw
      constructor <;> rintro rfl <;> cases hd
    · rw [ht, raiseIllegalCommand_eq]
      exact ⟨rfl, rfl, rfl, rfl⟩
  · exact .inr (.inl ⟨by simp [Resets, hp], rest, ht⟩)

/-! ### The assembler's invariant (R50) -/

/-- An armed assembler's step is between 1 and 8 (10_state.md R36). -/
theorem sdStep_bounds {s : State} (h : sdArmed s = true) : 1 ≤ (sdStep s).toNat ∧ (sdStep s).toNat ≤ 8 := by
  cases hc : s.sdCtl with
  | disarmed => simp [sdArmed_disarmed hc] at h
  | armed n => rw [sdStep_armed hc]; cases n <;> decide

/-- The assembler's invariant is about SD_BUF alone: all zero while disarmed, zero from `BASE[n]` on in Armed(n). -/
theorem assemblerInvariant_iff (s : State) :
    AssemblerInvariant s ↔
      (s.sdCtl = .disarmed → ∀ i : Fin 20, s.sdBuf[i.val] = 0x00) ∧
      (∀ n, s.sdCtl = .armed n → ∀ i : Fin 20, n.base ≤ i.val → s.sdBuf[i.val] = 0x00) := by
  constructor
  · rintro ⟨hdis, -, harm⟩
    exact ⟨fun hc => (hdis (sdArmed_disarmed hc)).2, harm⟩
  · rintro ⟨hdis, harm⟩
    refine ⟨fun ha => ?_, sdStep_bounds, harm⟩
    cases hc : s.sdCtl with
    | disarmed => exact ⟨sdStep_disarmed hc, hdis hc⟩
    | armed n => simp [sdArmed_armed hc] at ha

/-- An empty SD_BUF meets the invariant in every control state. -/
theorem assemblerInvariant_of_sdBuf_zero {s : State} (h : s.sdBuf = zeroBytes 20) : AssemblerInvariant s := by
  simp [assemblerInvariant_iff, h]

/-- The invariant reads SD_ARMED, SD_STEP and SD_BUF alone. -/
theorem AssemblerInvariant.congr {s t : State} (h : AssemblerInvariant s) (hc : t.sdCtl = s.sdCtl)
    (hb : t.sdBuf = s.sdBuf) : AssemblerInvariant t := by
  rw [assemblerInvariant_iff] at h ⊢
  rwa [hc, hb]

/-- An accepted step fills SD_BUF exactly up to where the next step's bytes start (45_slowdata.md R205, R207). -/
theorem assemblerInvariant_of_step_accepted {s : State} {n n' : SdStep} (h : AssemblerInvariant s)
    (hc : s.sdCtl = .armed n) (hn : n.next = some n') (u : Vector Byte 3) :
    AssemblerInvariant
      ((s.withSdBuf (writeBytes s.sdBuf n.base (n.recovered u))).withSdCtl (.armed n')) := by
  obtain ⟨-, hbase⟩ := SdStep.next_spec n n' hn u
  obtain ⟨-, harm⟩ := (assemblerInvariant_iff s).1 h
  rw [assemblerInvariant_iff]
  refine ⟨by simp, fun m hm i hi => ?_⟩
  cases hm
  have hpast : ¬ (n.base ≤ i.val ∧ i.val < n.base + (n.recovered u).length) := by omega
  simpa [getElem_writeBytes, hpast] using harm n hc i (by omega)

/-- Presenting a frame keeps the invariant, one case for each row of 45_slowdata.md R212. -/
theorem presentFrame_keeps_assemblerInvariant (T : Tables) (seq : Byte) (a : Vector Byte 3) {s : State}
    (hs : AssemblerInvariant s) : AssemblerInvariant (presentFrame T seq a s).1 := by
  rcases presentFrame_cases T seq a s with ⟨_, h⟩ | ⟨_, _, h⟩ | ⟨n, _, _, _, _, h⟩ | ⟨n, _, _, _, _, h⟩ |
    ⟨n, _, _, _, _, h⟩ | ⟨n, n', _, hc, _, _, hn, h⟩ | ⟨n, _, _, _, _, _, h⟩ <;> rw [h]
  · exact assemblerInvariant_of_sdBuf_zero rfl
  · exact hs
  · exact hs
  · exact assemblerInvariant_of_sdBuf_zero rfl
  · exact assemblerInvariant_of_sdBuf_zero rfl
  · exact assemblerInvariant_of_step_accepted hs hc hn _
  · exact assemblerInvariant_of_sdBuf_zero rfl

/-- Every step keeps the invariant, whatever the tables. -/
theorem stepWith_keeps_assemblerInvariant {T : Tables} {s t : State} (hs : AssemblerInvariant s)
    (h : stepWith T s = .next t) : AssemblerInvariant t := by
  rcases stepWith_assembler_cases h with ⟨-, -, hc, hb, -, -⟩ | ⟨-, rest, rfl⟩ | ⟨-, rest, rfl⟩ |
    ⟨-, rest, r, rfl, rfl⟩
  · exact hs.congr hc hb
  · exact assemblerInvariant_of_sdBuf_zero rfl
  · exact assemblerInvariant_of_sdBuf_zero rfl
  · have hpending : AssemblerInvariant (s.withPending rest) := hs.congr rfl rfl
    exact (presentFrame_keeps_assemblerInvariant T (operandSeq s) (operandAux s) hpending).congr rfl rfl

/-- Settles O55: the invariant is kept by each of the four things a step can do to the assembler; `step` is the step with
the default tables. -/
theorem stepKeepsAssemblerInvariant : Obligations.StepKeepsAssemblerInvariant := by
  refine ⟨assemblerInvariant_of_sdBuf_zero rfl, fun s t hs h => ?_, fun T s t hs h => ?_⟩
  · exact stepWith_keeps_assemblerInvariant hs ((step_eq_stepWith s).symm.trans h)
  · exact stepWith_keeps_assemblerInvariant hs h

/-! ### CFG (R40) -/

/-- CFG is read at 0xE0 (10_state.md R31). -/
theorem memRead_cfg (s : State) : memRead 0xE0 s = cfgView s := rfl

/-- A host write at 0xE0 stores bits 1:0 and nothing else (10_state.md R40). -/
theorem hostWrite_cfg (v : Byte) (s : State) :
    hostWrite 0xE0 v s = .next { s with demuxNib := v.getLsbD 0, sdSkip := v.getLsbD 1 } := rfl

/-- CFG reads back bits 1:0 of the byte whose two bits it stores (10_state.md R40). -/
theorem cfgView_eq_and {s : State} {v : Byte} (h0 : s.demuxNib = v.getLsbD 0) (h1 : s.sdSkip = v.getLsbD 1) :
    cfgView s = v &&& 0x03 := by
  unfold cfgView
  rw [h0, h1]
  refine BitVec.eq_of_getLsbD_eq fun k hk => ?_
  refine BitVec.getLsbD_append.trans ?_
  rw [BitVec.getLsbD_append]
  interval_cases k <;> simp

/-- CFG's reserved bits read 0 in every state (10_state.md R40). -/
theorem cfgView_reserved (s : State) : cfgView s &&& 0xFC = 0 := by
  unfold cfgView
  cases s.sdSkip <;> cases s.demuxNib <;> rfl

/-- Settles O13: what a write stores reads back masked, and a command's frame holds CFG. -/
theorem cfgStoresTwoBits : Obligations.CfgStoresTwoBits := by
  refine ⟨fun s v => ?_, cfgView_reserved, rfl, fun w s => ?_⟩
  · exact ⟨_, hostWrite_cfg v s, rfl, cfgView_eq_and rfl rfl, rfl, rfl⟩
  · obtain ⟨o, f, c, b, x, tv, st, h⟩ := execute_frame w s
    exact ⟨_, h, rfl⟩

/-! ### STATUS (R45, R46) -/

/-- Settles O18: a legal word ends with its command's STATUS write, an illegal one with IllegalCommand's. -/
theorem statusReportsEveryCommand : Obligations.StatusReportsEveryCommand := by
  intro w s
  rw [isIllegalWord_iff]
  match hd : decode w with
  | .ok i =>
    cases encode_of_decode_eq_ok hd
    obtain ⟨ev, u, hi, hev⟩ := execWith_finish defaultTables i s
    have hword : i ≠ .sdFrame ↔ encode i ≠ 0x0A := encode_injective.ne_iff.symm
    refine ⟨_, (execute_of_decode_ok hd s).trans hi, ?_⟩
    rw [finish_eq]
    refine ⟨statusLastOp_statusWord _ _ _, ?_, ?_⟩
    · simp
    · rw [statusSdEv_statusWord, SdEvent.code_eq_zero_iff, hev, hword]
  | .error e =>
    have hword : w ≠ 0x0A := by rintro rfl; cases hd
    refine ⟨_, execute_of_decode_error hd s, statusLastOp_statusWord _ _ _, ?_, ?_⟩
    · simp
    · exact iff_of_true (statusSdEv_statusWord _ _ _) hword

/-! ### SD_TVALID (R39) -/

/-- What a step makes of SD_TVALID: a reset and SD_RESET clear it, an emission sets it, and nothing else changes it
(10_state.md R39). -/
theorem step_sdTvalid {s t : State} (h : step s = .next t) :
    ((Resets s ∨ Issues s 0x09) ∧ ¬ (Issues s 0x0A ∧ statusSdEv t.status = 3) ∧ t.sdTvalid = false) ∨
    (¬ (Resets s ∨ Issues s 0x09) ∧ (Issues s 0x0A ∧ statusSdEv t.status = 3) ∧ t.sdTvalid = true) ∨
    (¬ (Resets s ∨ Issues s 0x09) ∧ ¬ (Issues s 0x0A ∧ statusSdEv t.status = 3) ∧ t.sdTvalid = s.sdTvalid) := by
  rw [step_eq_stepWith] at h
  rcases stepWith_assembler_cases h with ⟨hr, hw, -, -, -, htv⟩ | ⟨hr, rest, rfl⟩ | ⟨h9, rest, rfl⟩ |
    ⟨hA, rest, r, hr, rfl⟩
  · exact .inr (.inr ⟨fun hclear => hclear.elim hr fun h9 => (hw _ h9).1 rfl, fun hemit => (hw _ hemit.1).2 rfl, htv⟩)
  · exact .inl ⟨.inl hr, fun hemit => not_resets_or_issues_sdReset hemit.1 (.inl hr), rfl⟩
  · exact .inl ⟨.inr h9, fun hemit => not_resets_or_issues_sdReset hemit.1 (.inr h9), rfl⟩
  · have htv : r.1.sdTvalid = if r.2 = .emit then true else s.sdTvalid := by
      rw [hr, presentFrame_sdTvalid]
      rfl
    have hev : statusSdEv (statusWord r.2 false 0xA) = 3 ↔ r.2 = .emit := by
      rw [statusSdEv_statusWord, SdEvent.code_eq_three_iff]
    by_cases hemit : r.2 = .emit
    · exact .inr (.inl ⟨not_resets_or_issues_sdReset hA, ⟨hA, hev.2 hemit⟩, htv.trans (if_pos hemit)⟩)
    · exact .inr (.inr ⟨not_resets_or_issues_sdReset hA, fun h3 => hemit (hev.1 h3.2), htv.trans (if_neg hemit)⟩)

/-- Settles O48: each clause excludes two of the three things a step can make of SD_TVALID. -/
theorem tvalidSetByEmitClearedByReset : Obligations.TvalidSetByEmitClearedByReset := by
  refine ⟨fun s t h hs ht => ?_, fun s t h hs ht => ?_, fun s t h hA h3 => ?_, fun s t h hclear => ?_⟩
  · rcases step_sdTvalid h with ⟨-, -, ht'⟩ | ⟨-, hemit, -⟩ | ⟨-, -, ht'⟩
    · cases ht.symm.trans ht'
    · exact hemit
    · cases hs.symm.trans (ht'.symm.trans ht)
  · rcases step_sdTvalid h with ⟨hclear, -, -⟩ | ⟨-, -, ht'⟩ | ⟨-, -, ht'⟩
    · exact hclear
    · cases ht.symm.trans ht'
    · cases hs.symm.trans (ht'.symm.trans ht)
  · rcases step_sdTvalid h with ⟨-, hemit, -⟩ | ⟨-, -, ht'⟩ | ⟨-, hemit, -⟩
    · exact absurd ⟨hA, h3⟩ hemit
    · exact ht'
    · exact absurd ⟨hA, h3⟩ hemit
  · rcases step_sdTvalid h with ⟨-, -, ht'⟩ | ⟨hkeep, -, -⟩ | ⟨hkeep, -, -⟩
    · exact ht'
    · exact absurd hclear hkeep
    · exact absurd hclear hkeep

/-! ### Reset (R54) -/

/-- Settles O14: the buffers are `zeroBytes`, FRAME is `clearFrame`, and SYNCPAT is the parameter byte by byte. -/
theorem resetValues : Obligations.ResetValues := by
  refine ⟨?_, ?_, ?_, ?_, ?_, rfl, rfl, rfl, rfl, rfl, rfl, rfl, rfl, ?_⟩
  · exact fun i => getElem_zeroBytes 33 i.val i.isLt
  · exact fun i => getElem_zeroBytes 33 i.val i.isLt
  · exact fun i => getElem_zeroBytes 20 i.val i.isLt
  · exact fun i => getElem_zeroBytes 21 i.val i.isLt
  · exact cell_clearFrame
  · intro i
    fin_cases i <;> rfl

end Sys2Proof.Machine
end

section
/-! PROOFS. The register space (20_memory.md R61, R63). First the facts the address map rests on: which addresses are
unmapped, which name a read-only register, and what a host write that issues no command does. Then the obligation. -/

namespace Sys2Proof.Machine

/-! ### The address map -/

/-- The read-only locations: they read as a register and ignore a host write (20_memory.md R63). -/
def Region.isReadOnly : Region → Bool
  | .obuf _ | .frameByte _ _ | .sdState | .sdBuf _ | .sdText _ | .status => true
  | .ibuf _ | .cfg | .syncpat _ | .cmd | .unmapped => false

/-- The decoder leaves unmapped exactly the addresses outside the table of 10_state.md R31 (20_memory.md R63). -/
theorem region_eq_unmapped_iff (a : Byte) : region a = .unmapped ↔ IsUnmapped a.toNat := by
  have ha : a.toNat < 256 := a.isLt
  unfold region IsUnmapped
  fun_cases regionAt a.toNat <;> simp only [reduceCtorEq, true_iff, false_iff] <;> omega

/-- The decoder sends exactly the addresses of the read-only registers to a read-only location (10_state.md R31). -/
theorem region_isReadOnly_iff (a : Byte) : (region a).isReadOnly = true ↔ IsReadOnly a.toNat := by
  unfold region IsReadOnly
  fun_cases regionAt a.toNat <;>
    simp only [Region.isReadOnly, Bool.false_eq_true, true_iff, false_iff] <;> omega

/-! ### Host writes that issue no command -/

/-- A host write away from CMD goes to its location and issues no command (20_memory.md R61). -/
theorem hostWrite_of_region_ne_cmd {a : Byte} (h : region a ≠ .cmd) (v : Byte) (s : State) :
    hostWrite a v s = .next (writeRegion (region a) v s) := by
  unfold hostWrite hostWriteBy
  split
  · contradiction
  · rfl

/-- An unmapped location ignores a host write (20_memory.md R63). -/
@[simp] theorem writeRegion_unmapped (v : Byte) (s : State) : writeRegion .unmapped v s = s := rfl

/-- A read-only location ignores a host write (20_memory.md R63). -/
theorem writeRegion_of_isReadOnly {r : Region} (h : r.isReadOnly = true) (v : Byte) (s : State) :
    writeRegion r v s = s := by
  cases r with
  | obuf | frameByte | sdState | sdBuf | sdText | status => rfl
  | ibuf | cfg | syncpat | cmd | unmapped => contradiction

/-! ### Unmapped and read-only addresses (R63) -/

/-- An unmapped address reads 0x00 (20_memory.md R63). -/
theorem memRead_of_isUnmapped {a : Byte} (h : IsUnmapped a.toNat) (s : State) : memRead a s = 0x00 := by
  rw [memRead, (region_eq_unmapped_iff a).2 h]
  rfl

/-- A host write to an unmapped address changes nothing (20_memory.md R63). -/
theorem hostWrite_of_isUnmapped {a : Byte} (h : IsUnmapped a.toNat) (v : Byte) (s : State) :
    hostWrite a v s = .next s := by
  have hr : region a = .unmapped := (region_eq_unmapped_iff a).2 h
  rw [hostWrite_of_region_ne_cmd (by simp [hr]), hr, writeRegion_unmapped]

/-- A host write to a read-only register changes nothing (20_memory.md R63). -/
theorem hostWrite_of_isReadOnly {a : Byte} (h : IsReadOnly a.toNat) (v : Byte) (s : State) :
    hostWrite a v s = .next s := by
  have hr : (region a).isReadOnly = true := (region_isReadOnly_iff a).2 h
  have hcmd : region a ≠ .cmd := fun hc => by simp [hc, Region.isReadOnly] at hr
  rw [hostWrite_of_region_ne_cmd hcmd, writeRegion_of_isReadOnly hr]

/-- Settles O11: the decoder sends these addresses to locations that keep no byte of a host write. -/
theorem unmappedAndReadOnlyIgnoreWrites : Obligations.UnmappedAndReadOnlyIgnoreWrites := fun _ v s =>
  ⟨fun h => ⟨memRead_of_isUnmapped h s, hostWrite_of_isUnmapped h v s⟩, fun h => hostWrite_of_isReadOnly h v s⟩

end Sys2Proof.Machine
end

section
/-! PROOFS. The illegal command words (30_encoding.md R83): they are the words no command decodes from, and what one does
to the state. Then the obligation. -/

namespace Sys2Proof.Machine

/-- The decoder refuses exactly the words that decode to no command. -/
theorem exists_decode_error_iff (w : Byte) : (∃ e, decode w = .error e) ↔ ∀ i, decode w ≠ .ok i := by
  cases decode w with
  | error e => simp
  | ok i => simp

/-- The STATUS of IllegalCommand: SD_EV = NONE and ERR = 1 above the word's OP (60_exceptions.md R240). -/
theorem statusWord_none_true (op : BitVec 4) : statusWord .none true op = 0b000#3 ++ 0b1#1 ++ op := rfl

/-- Issuing an illegal word rewrites STATUS and nothing else (30_encoding.md R83, 60_exceptions.md R240). -/
theorem execute_of_isIllegalWord {w : Byte} (h : IsIllegalWord w) (s : State) :
    execute w s = .next { s with status := 0b000#3 ++ 0b1#1 ++ w.extractLsb' 0 4 } := by
  obtain ⟨e, hd⟩ := (isIllegalWord_iff w).1 h
  rw [execute_of_decode_error hd, statusWord_none_true, opField]

/-- Settles O3: the decoder answers a command or a refusal, and a refused word takes IllegalCommand. -/
theorem illegalWordsRaiseIllegalCommand : Obligations.IllegalWordsRaiseIllegalCommand := fun w s =>
  ⟨(isIllegalWord_iff w).trans (exists_decode_error_iff w), fun h => execute_of_isIllegalWord h s⟩

end Sys2Proof.Machine
end

section
/-! PROOFS. The Golay encoder (40_golay.md). First the parity table: a well-generated one is the rule of R101 entry for
entry, and the default one is well-generated. Then the bytes GOLAY_ENC leaves in OBUF, for any tables. Each obligation
follows the facts it rests on. -/

namespace Sys2Proof.Machine

/-! ### The parity table (R103) -/

/-- A configuration whose table is the one its generator gives looks every parity up as the rule of 40_golay.md R101
computes it. -/
theorem golayParity_of_golayGenerated {T : Tables} (h : T.golayGenerated = true) (d : Byte) :
    golayParity T d = golayRule T.golayG d := by
  obtain ⟨-, hentries⟩ := Bool.and_eq_true_iff.1 h
  have hentry := of_decide_eq_true (List.all_eq_true.1 hentries d.toFin (List.mem_finRange _))
  have hd : BitVec.ofNat 8 d.toFin.val = d := by simp
  rwa [hd] at hentry

/-- The printed table is the one the generator 0xC75 gives: its 256 entries, computed (40_golay.md R103). -/
theorem golayGenerated_defaultTables : defaultTables.golayGenerated = true := by decide +kernel

/-- Settles O24: the default configuration's table is the one its generator, 0xC75, gives. -/
theorem golayTableAgreesWithRule : Obligations.GolayTableAgreesWithRule :=
  golayParity_of_golayGenerated golayGenerated_defaultTables

/-! ### The bytes of GOLAY_ENC (R102, R104) -/

/-- OBUF after GOLAY_ENC holds the codeword's three bytes at its start and zeros from there on (40_golay.md R102, R104). -/
theorem getElem_resultBytes_golayBytes (T : Tables) (d : Byte) (i : Nat) (h : i < 33) :
    (resultBytes (golayBytes T d).toList)[i] =
      if i = 0 then d
      else if i = 1 then (golayParity T d).extractLsb' 4 8
      else if i = 2 then (golayParity T d).extractLsb' 0 4 ++ 0#4
      else 0x00 := by
  rw [getElem_resultBytes]
  match i with
  | 0 | 1 | 2 | _ + 3 => rfl

/-- The parity of 0x11, in the spec's worked example (40_golay.md R104). -/
theorem golayParity_defaultTables_0x11 : golayParity defaultTables 0x11 = 0xB8C := rfl

/-- Settles O27: the codeword's bytes are those of the table's parity, which is the rule's by O24. -/
theorem golayEncResult : Obligations.GolayEncResult := by
  intro s
  have hrule : golayParity defaultTables s.ibuf[0] = golayRule 0xC75 s.ibuf[0] := golayTableAgreesWithRule _
  refine ⟨decode_encode .golayEnc, _, exec_golayEnc s, rfl, ?_⟩
  simp only [getElem_resultBytes_golayBytes, ← hrule]
  refine ⟨rfl, rfl, rfl, fun i hi => ?_, fun hd => ?_⟩
  · simp [show i.val ≠ 0 by omega, show i.val ≠ 1 by omega, show i.val ≠ 2 by omega]
  · rw [hd, golayParity_defaultTables_0x11]
    decide

end Sys2Proof.Machine
end

section
/-! PROOFS. The BPTC(196,96) encoder (41_bptc.md). First the stages cell by cell, for any tables: the data placement,
the row code and the column code. From these the two parity laws of the encoded matrix, of which the row law for the
parity rows is the product-code fact of R126. Then the packing into OBUF. The obligations are the laws at the default
tables. -/

namespace Sys2Proof.Machine

/-! ### Exclusive-or sums -/

theorem xorBits_map_false {α : Type} (l : List α) : xorBits (l.map fun _ => false) = false := by
  induction l with
  | nil => rfl
  | cons x xs ih => simpa using ih

theorem xorBits_map_xor {α : Type} (f g : α → Bool) (l : List α) :
    xorBits (l.map fun x => f x ^^ g x) = (xorBits (l.map f) ^^ xorBits (l.map g)) := by
  induction l with
  | nil => rfl
  | cons x xs ih =>
    simp only [List.map_cons, xorBits_cons, ih, Bool.xor_assoc, Bool.xor_left_comm]

/-- A double sum does not depend on which index is summed first. -/
theorem xorBits_map_comm {α β : Type} (f : α → β → Bool) (l : List α) (k : List β) :
    xorBits (l.map fun x => xorBits (k.map fun y => f x y)) =
      xorBits (k.map fun y => xorBits (l.map fun x => f x y)) := by
  induction l with
  | nil => exact (xorBits_map_false k).symm
  | cons x xs ih => simp only [List.map_cons, xorBits_cons, ih, xorBits_map_xor]

/-! ### The data placement (R121, R122) -/

/-- Each data slot holds its input bit, when no slot is named twice (41_bptc.md R121). -/
theorem getLsbD_bptcPlace_slot {T : Tables} (hT : (T.bptcSlots.toList.map Fin.val).Nodup) (block : Vector Byte 12)
    (k : Fin 96) : (bptcPlace T block).getLsbD (T.bptcSlots[k.val]).val = msbStream block k.val := by
  have hslots : (List.finRange 96).map (fun k => (T.bptcSlots[k.val]).val) = T.bptcSlots.toList.map Fin.val := by
    apply List.ext_getElem <;> simp
  apply getLsbD_scatterBits_mem
  · simpa [List.map_map, Function.comp_def, hslots] using hT
  · exact List.mem_map.2 ⟨k, List.mem_finRange k, rfl⟩
  · exact Fin.isLt _

/-- A position that is no data slot starts at 0 (41_bptc.md R121, R122). -/
theorem getLsbD_bptcPlace_of_not_slot {T : Tables} (block : Vector Byte 12) {a : Nat}
    (h : ∀ k : Fin 96, (T.bptcSlots[k.val]).val ≠ a) : (bptcPlace T block).getLsbD a = false := by
  rw [bptcPlace, getLsbD_scatterBits_other]
  · simp
  · simpa using h

/-! ### The row and column codes, cell by cell (R120, R123, R126) -/

/-- The cells of the 13 by 15 matrix are the positions 1 to 195, row by row (41_bptc.md R120). -/
theorem matrixPos_spec {r c : Nat} (hr : r < 13) (hc : c < 15) :
    matrixPos r c < 196 ∧ 1 ≤ matrixPos r c ∧ (matrixPos r c - 1) / 15 = r ∧ (matrixPos r c - 1) % 15 = c := by
  unfold matrixPos
  omega

section
variable (T : Tables) (m : BitVec 196) {r c : Nat}

/-- Every cell after the row code (41_bptc.md R123). -/
theorem encodeRows_matrixPos (hr : r < 13) (hc : c < 15) :
    (encodeRows T m).getLsbD (matrixPos r c) =
      if r ≤ 8 ∧ 11 ≤ c then rowParity T m r ⟨(c - 11) % 4, Nat.mod_lt _ (by decide)⟩
      else m.getLsbD (matrixPos r c) := by
  obtain ⟨hlt, hone, hrow, hcol⟩ := matrixPos_spec hr hc
  rw [getLsbD_encodeRows]
  simp only [hlt, hone, hrow, hcol, decide_true, Bool.true_and, true_and]

/-- Every cell after the column code (41_bptc.md R126). -/
theorem encodeCols_matrixPos (hr : r < 13) (hc : c < 15) :
    (encodeCols T m).getLsbD (matrixPos r c) =
      if 9 ≤ r then colParity T m c ⟨(r - 9) % 4, Nat.mod_lt _ (by decide)⟩ else m.getLsbD (matrixPos r c) := by
  obtain ⟨hlt, hone, hrow, hcol⟩ := matrixPos_spec hr hc
  rw [getLsbD_encodeCols]
  simp only [hlt, hone, hrow, hcol, decide_true, Bool.true_and, true_and]

theorem encodeRows_dataCol (hr : r < 13) (hc : c < 11) :
    (encodeRows T m).getLsbD (matrixPos r c) = m.getLsbD (matrixPos r c) := by
  rw [encodeRows_matrixPos T m hr (by omega), if_neg (by omega)]

theorem encodeRows_parityCol (hr : r < 9) (j : Fin 4) :
    (encodeRows T m).getLsbD (matrixPos r (11 + j)) = rowParity T m r j := by
  rw [encodeRows_matrixPos T m (by omega) (by omega), if_pos (by omega)]
  simp [Nat.mod_eq_of_lt j.isLt]

theorem encodeCols_dataRow (hr : r < 9) (hc : c < 15) :
    (encodeCols T m).getLsbD (matrixPos r c) = m.getLsbD (matrixPos r c) := by
  rw [encodeCols_matrixPos T m (by omega) hc, if_neg (by omega)]

theorem encodeCols_parityRow (hc : c < 15) (j : Fin 4) :
    (encodeCols T m).getLsbD (matrixPos (9 + j) c) = colParity T m c j := by
  rw [encodeCols_matrixPos T m (by omega) hc, if_pos (by omega)]
  simp [Nat.mod_eq_of_lt j.isLt]

/-- The row code reads the data columns of its row alone. -/
theorem rowParity_congr {m m' : BitVec 196} {r : Nat}
    (h : ∀ c < 11, m.getLsbD (matrixPos r c) = m'.getLsbD (matrixPos r c)) (j : Fin 4) :
    rowParity T m r j = rowParity T m' r j := by
  simp only [rowParity, h _ (Fin.isLt _)]

/-- The column code reads the data rows of its column alone. -/
theorem colParity_congr {m m' : BitVec 196} {c : Nat}
    (h : ∀ r < 9, m.getLsbD (matrixPos r c) = m'.getLsbD (matrixPos r c)) (j : Fin 4) :
    colParity T m c j = colParity T m' c j := by
  simp only [colParity, h _ (Fin.isLt _)]

end

/-! ### The encoded matrix (R121 to R126) -/

section
variable (T : Tables) (block : Vector Byte 12)

/-- Neither code writes `M[0]` or a cell in a data row and a data column. -/
theorem getLsbD_bptcMatrix_of_data {a : Nat} (hrow : (a - 1) / 15 ≤ 8) (hcol : (a - 1) % 15 ≤ 10) :
    (bptcMatrix T block).getLsbD a = (bptcPlace T block).getLsbD a := by
  have hpos : a < 196 := by omega
  have hrow' : ¬ 9 ≤ (a - 1) / 15 := by omega
  have hcol' : ¬ 11 ≤ (a - 1) % 15 := by omega
  rw [bptcMatrix, getLsbD_encodeCols, getLsbD_encodeRows]
  simp only [hpos, hrow', hcol', and_false, if_false, decide_true, Bool.true_and]

/-- Each column of the encoded matrix satisfies the equations of the column code (41_bptc.md R126): the column code
wrote its parity rows and left the data rows it sums. -/
theorem bptcMatrix_parityRow {c : Nat} (hc : c < 15) (j : Fin 4) :
    (bptcMatrix T block).getLsbD (matrixPos (9 + j) c) = colParity T (bptcMatrix T block) c j := by
  rw [bptcMatrix, encodeCols_parityRow T _ hc]
  exact colParity_congr T (fun r hr => (encodeCols_dataRow T _ hr hc).symm) j

/-- A data row of the encoded matrix satisfies the equations of the row code (41_bptc.md R123). -/
theorem bptcMatrix_parityCol_of_dataRow {r : Nat} (hr : r < 9) (j : Fin 4) :
    (bptcMatrix T block).getLsbD (matrixPos r (11 + j)) = rowParity T (bptcMatrix T block) r j := by
  rw [bptcMatrix, encodeCols_dataRow T _ hr (by omega), encodeRows_parityCol T _ hr]
  refine rowParity_congr T (fun c hc => ?_) j
  rw [encodeCols_dataRow T _ hr (by omega), encodeRows_dataCol T _ (by omega) hc]

/-- A parity row of the encoded matrix satisfies the equations of the row code too (41_bptc.md R126). Its cells are
column sums of data rows that satisfy them, and the sum over rows and the sum over columns commute. -/
theorem bptcMatrix_parityCol_of_parityRow (i j : Fin 4) :
    (bptcMatrix T block).getLsbD (matrixPos (9 + i) (11 + j)) = rowParity T (bptcMatrix T block) (9 + i) j := by
  have hdata (r : Fin 9) := bptcMatrix_parityCol_of_dataRow T block r.isLt j
  have hcol (c : Fin 11) := bptcMatrix_parityRow T block (show c.val < 15 by omega) i
  calc
    _ = xorBits (T.hamCol[i.val].map fun r : Fin 9 => (bptcMatrix T block).getLsbD (matrixPos r (11 + j))) :=
        bptcMatrix_parityRow T block (by omega) i
    _ = xorBits (T.hamCol[i.val].map fun r : Fin 9 =>
          xorBits (T.hamRow[j.val].map fun c : Fin 11 => (bptcMatrix T block).getLsbD (matrixPos r c))) := by
        simp only [hdata, rowParity]
    _ = xorBits (T.hamRow[j.val].map fun c : Fin 11 =>
          xorBits (T.hamCol[i.val].map fun r : Fin 9 => (bptcMatrix T block).getLsbD (matrixPos r c))) :=
        xorBits_map_comm _ _ _
    _ = rowParity T (bptcMatrix T block) (9 + i) j := by
        simp only [hcol, rowParity, colParity]

/-- Each row of the encoded matrix satisfies the equations of the row code (41_bptc.md R123, R126). -/
theorem bptcMatrix_parityCol {r : Nat} (hr : r < 13) (j : Fin 4) :
    (bptcMatrix T block).getLsbD (matrixPos r (11 + j)) = rowParity T (bptcMatrix T block) r j := by
  by_cases hdata : r < 9
  · exact bptcMatrix_parityCol_of_dataRow T block hdata j
  · have hi : r = 9 + (⟨r - 9, by omega⟩ : Fin 4).val := by simp; omega
    rw [hi]
    exact bptcMatrix_parityCol_of_parityRow T block _ j

end

/-! ### The default codes (R124, R125) -/

/-- The default row table is Hamming(15,11,3): its four sums are the four equations of 41_bptc.md R124. -/
theorem isHamming15_of_rowParity {m : BitVec 196} {r : Nat}
    (h : ∀ j : Fin 4, m.getLsbD (matrixPos r (11 + j)) = rowParity defaultTables m r j) :
    IsHamming15 fun c => m.getLsbD (1 + 15 * r + c) := by
  have hrow (j : Fin 4) : m.getLsbD (1 + 15 * r + (11 + j)) = rowParity defaultTables m r j := h j
  refine ⟨(hrow 0).trans ?_, (hrow 1).trans ?_, (hrow 2).trans ?_, (hrow 3).trans ?_⟩ <;>
    simp [rowParity, defaultTables, matrixPos]

/-- The default column table is Hamming(13,9,3): its four sums are the four equations of 41_bptc.md R125. -/
theorem isHamming13_of_colParity {m : BitVec 196} {c : Nat}
    (h : ∀ j : Fin 4, m.getLsbD (matrixPos (9 + j) c) = colParity defaultTables m c j) :
    IsHamming13 fun r => m.getLsbD (1 + 15 * r + c) := by
  have hcol (j : Fin 4) : m.getLsbD (1 + 15 * (9 + j) + c) = colParity defaultTables m c j := h j
  refine ⟨(hcol 0).trans ?_, (hcol 1).trans ?_, (hcol 2).trans ?_, (hcol 3).trans ?_⟩ <;>
    simp [colParity, defaultTables, matrixPos]

theorem isHamming15_bptcMatrix (block : Vector Byte 12) {r : Nat} (hr : r < 13) :
    IsHamming15 fun c => (bptcMatrix defaultTables block).getLsbD (1 + 15 * r + c) :=
  isHamming15_of_rowParity (bptcMatrix_parityCol defaultTables block hr)

theorem isHamming13_bptcMatrix (block : Vector Byte 12) {c : Nat} (hc : c < 15) :
    IsHamming13 fun r => (bptcMatrix defaultTables block).getLsbD (1 + 15 * r + c) :=
  isHamming13_of_colParity (bptcMatrix_parityRow defaultTables block hc)

/-- Settles O29: the row law and the column law of the encoded matrix, at the default tables. -/
theorem bptcProductCode : Obligations.BptcProductCode := fun block =>
  ⟨fun c => isHamming13_bptcMatrix block c.isLt, fun r => isHamming15_bptcMatrix block r.isLt⟩

/-! ### The default placement and interleave (R121, R122, R127) -/

/-- The default slot table is the placement rule of 41_bptc.md R121. -/
theorem bptcSlots_defaultTables : ∀ k : Fin 96, (defaultTables.bptcSlots[k.val]).val = slotOf k.val := by decide +kernel

theorem bptcSlots_nodup_defaultTables : (defaultTables.bptcSlots.toList.map Fin.val).Nodup := by decide +kernel

/-- A multiplier coprime to the modulus sends the 196 positions to distinct targets (41_bptc.md R127). -/
theorem interleave_nodup {T : Tables} (hmod : T.bptcIlvMod = 196) (hcop : Nat.Coprime T.bptcIlv T.bptcIlvMod) :
    ((List.range 196).map fun a => a * T.bptcIlv % T.bptcIlvMod).Nodup := by
  refine List.Nodup.map_on (fun a ha b hb h => ?_) List.nodup_range
  have hab : a ≡ b [MOD T.bptcIlvMod] := Nat.ModEq.cancel_right_of_coprime hcop.symm h
  rw [List.mem_range, ← hmod] at ha hb
  exact hab.eq_of_lt_of_lt ha hb

/-- Every slot is a cell in a data row and a data column, past the zero bits (41_bptc.md R121, R122). -/
theorem slotOf_bounds {k : Nat} (h : k < 96) :
    4 ≤ slotOf k ∧ (slotOf k - 1) / 15 ≤ 8 ∧ (slotOf k - 1) % 15 ≤ 10 := by
  unfold slotOf
  split <;> omega

theorem bptcMatrix_slotOf (block : Vector Byte 12) (k : Fin 96) :
    (bptcMatrix defaultTables block).getLsbD (slotOf k.val) = msbStream block k.val := by
  obtain ⟨-, hrow, hcol⟩ := slotOf_bounds k.isLt
  rw [getLsbD_bptcMatrix_of_data _ _ hrow hcol, ← bptcSlots_defaultTables,
    getLsbD_bptcPlace_slot bptcSlots_nodup_defaultTables]

theorem bptcMatrix_zeroBits (block : Vector Byte 12) {a : Nat} (ha : a < 4) :
    (bptcMatrix defaultTables block).getLsbD a = false := by
  rw [getLsbD_bptcMatrix_of_data _ _ (by omega) (by omega)]
  refine getLsbD_bptcPlace_of_not_slot block fun k => ?_
  obtain ⟨hpast, -⟩ := slotOf_bounds k.isLt
  rw [bptcSlots_defaultTables]
  omega

/-! ### The carrier in OBUF (R128) -/

/-- A full carrier of result bytes is OBUF itself. -/
theorem resultBytes_toList (v : Vector Byte 33) : resultBytes v.toList = v := by
  refine Vector.ext fun i hi => ?_
  rw [getElem_resultBytes]
  simp [hi]

/-- Settles O28: the matrix is the encoded one and the array its interleave; each clause is the law of one stage. -/
theorem bptcEncResult : Obligations.BptcEncResult := by
  intro s
  have hinput (k : Fin 96) : msbStream (operandBytes s 12 (by decide)) k.val = msbStream s.ibuf k.val :=
    msbStream_operandBytes s 12 (by decide) k.val k.isLt
  refine ⟨decode_encode .bptcEnc, _, bptcMatrix defaultTables (operandBytes s 12 (by decide)),
    interleave defaultTables (bptcMatrix defaultTables (operandBytes s 12 (by decide))), exec_bptcEnc s, rfl,
    fun k => (bptcMatrix_slotOf _ k).trans (hinput k), fun a => bptcMatrix_zeroBits _ a.isLt,
    fun r => isHamming15_bptcMatrix _ (by omega), fun c => isHamming13_bptcMatrix _ c.isLt,
    fun a => getLsbD_interleave defaultTables rfl (interleave_nodup rfl (by decide)) _ a.val a.isLt, fun n => ?_⟩
  rw [resultBytes_toList, carrierBitOf, bptc, msbStream_packCarrier _ _ n.isLt, carrierBit]

end Sys2Proof.Machine
end

section
/-! PROOFS. The field of 42_rs129.md. First what holds for any `prim`: doubling and the product are linear over `^`, and
doubling the first factor doubles the product, so products of powers of `α` add exponents. Then a primitive `prim`: `α`
has order 255, so its powers are all the nonzero bytes, LOG is defined on them, and the laws of the product are laws of
the exponents. The obligation is these laws at 0x11D. -/

namespace Sys2Proof.Machine

/-! ### Doubling and the product, for any polynomial (R140) -/

/-- A byte taken when one of two bits is set, but not both, is the sum of the byte taken for each. -/
theorem ite_xor (p q : Bool) (a : Byte) :
    (if p ^^ q then a else 0#8) = (if p then a else 0#8) ^^^ (if q then a else 0#8) := by
  cases p <;> cases q <;> simp

section
variable (prim : BitVec 9)

/-- Doubling in `simp`'s spelling of zero. -/
theorem gfDouble_eq (b : Byte) :
    gfDouble prim b = (b <<< 1) ^^^ (if b.getLsbD 7 then prim.setWidth 8 else 0#8) := rfl

/-- The product in `simp`'s spelling of zero: Horner's rule from bit 7 of the second factor down. -/
theorem gmul_eq (a b : Byte) :
    gmul prim a b =
      [7, 6, 5, 4, 3, 2, 1, 0].foldl (fun acc i => gfDouble prim acc ^^^ (if b.getLsbD i then a else 0#8)) 0#8 := rfl

@[simp] theorem gfDouble_zero : gfDouble prim 0#8 = 0#8 := by simp [gfDouble_eq]

theorem gfDouble_xor (x y : Byte) : gfDouble prim (x ^^^ y) = gfDouble prim x ^^^ gfDouble prim y := by
  simp only [gfDouble_eq, BitVec.shiftLeft_xor_distrib, BitVec.getLsbD_xor, ite_xor]
  ac_rfl

/-- Horner's rule is linear in what it adds at each step. -/
theorem foldl_gfDouble_xor (f g : Nat → Byte) (l : List Nat) (x y : Byte) :
    l.foldl (fun acc i => gfDouble prim acc ^^^ (f i ^^^ g i)) (x ^^^ y) =
      l.foldl (fun acc i => gfDouble prim acc ^^^ f i) x ^^^ l.foldl (fun acc i => gfDouble prim acc ^^^ g i) y := by
  induction l generalizing x y with
  | nil => rfl
  | cons i l ih =>
    have hstep : gfDouble prim (x ^^^ y) ^^^ (f i ^^^ g i) = (gfDouble prim x ^^^ f i) ^^^ (gfDouble prim y ^^^ g i) := by
      rw [gfDouble_xor]
      ac_rfl
    simp only [List.foldl_cons, hstep, ih]

/-- Horner's rule on doubled summands gives the double. -/
theorem foldl_gfDouble_gfDouble (f : Nat → Byte) (l : List Nat) (x : Byte) :
    l.foldl (fun acc i => gfDouble prim acc ^^^ gfDouble prim (f i)) (gfDouble prim x) =
      gfDouble prim (l.foldl (fun acc i => gfDouble prim acc ^^^ f i) x) := by
  induction l generalizing x with
  | nil => rfl
  | cons i l ih => rw [List.foldl_cons, ← gfDouble_xor, ih, List.foldl_cons]

/-- The product distributes over `^` (42_rs129.md R141). -/
theorem gmul_xor (a b c : Byte) : gmul prim a (b ^^^ c) = gmul prim a b ^^^ gmul prim a c := by
  simp only [gmul_eq, BitVec.getLsbD_xor, ite_xor]
  exact foldl_gfDouble_xor prim _ _ _ 0#8 0#8

/-- Doubling the first factor doubles the product. -/
theorem gmul_gfDouble (a b : Byte) : gmul prim (gfDouble prim a) b = gfDouble prim (gmul prim a b) := by
  have hbit (i : Nat) : (if b.getLsbD i then gfDouble prim a else 0#8) =
      gfDouble prim (if b.getLsbD i then a else 0#8) := by
    split <;> simp
  simp only [gmul_eq, hbit]
  rw [← foldl_gfDouble_gfDouble, gfDouble_zero]

@[simp] theorem gmul_zero_right (a : Byte) : gmul prim a 0#8 = 0#8 := by simp [gmul_eq]

@[simp] theorem gmul_zero_left (b : Byte) : gmul prim 0#8 b = 0#8 := by simp [gmul_eq]

/-- Doubling a byte that is shifted right reduces nothing, as its top bit is clear: it brings the next bit back in. -/
theorem gfDouble_ushiftRight_succ (b : Byte) (k : Nat) :
    gfDouble prim (b >>> (k + 1)) ^^^ (if b.getLsbD k then 1#8 else 0#8) = b >>> k := by
  refine BitVec.eq_of_getLsbD_eq fun i hi => ?_
  cases i with
  | zero => cases hb : b.getLsbD k <;> simp [gfDouble_eq, hb]
  | succ i =>
    have hi' : i + 1 < 8 := hi
    cases b.getLsbD k <;> simp [gfDouble_eq, hi', Nat.add_comm, Nat.add_left_comm]

/-- Horner's rule on the factor 1 shifts the second factor in bit by bit. -/
@[simp] theorem gmul_one_left (b : Byte) : gmul prim 1#8 b = b := by
  have hstart : gfDouble prim 0#8 = gfDouble prim (b >>> 8) :=
    congrArg (gfDouble prim) (BitVec.ushiftRight_eq_zero (Nat.le_refl 8)).symm
  have hstep := gfDouble_ushiftRight_succ prim b
  simp only [gmul_eq, List.foldl_cons, List.foldl_nil]
  rw [hstart, hstep 7, hstep 6, hstep 5, hstep 4, hstep 3, hstep 2, hstep 1, hstep 0, BitVec.ushiftRight_zero]

theorem gfExp_eq_iterate (i : Nat) : gfExp prim i = (gfDouble prim)^[i] 1 := by
  induction i with
  | zero => rfl
  | succ i ih => rw [gfExp, ih, Function.iterate_succ_apply']

/-- The product of two powers of `α` adds their exponents. -/
theorem gmul_gfExp (i j : Nat) : gmul prim (gfExp prim i) (gfExp prim j) = gfExp prim (i + j) := by
  induction i with
  | zero => simp [gfExp]
  | succ i ih => rw [Nat.succ_add, gfExp, gfExp, gmul_gfDouble, ih]

end

/-! ### A primitive polynomial: EXP and LOG (R140, R141) -/

section
variable {prim : BitVec 9}

/-- `α` has order 255 in the order's usual sense: a proper divisor of 255 divides 255/3, 255/5 or 255/17. -/
theorem minimalPeriod_gfDouble (hprim : gfPrimitive prim = true) :
    Function.minimalPeriod (gfDouble prim) 1 = 255 := by
  simp only [gfPrimitive, Bool.and_eq_true, decide_eq_true_eq, gfExp_eq_iterate] at hprim
  obtain ⟨⟨⟨⟨-, h255⟩, h85⟩, h51⟩, h15⟩ := hprim
  have hproper : ∀ d ∈ Nat.divisors 255, d = 255 ∨ d ∣ 85 ∨ d ∣ 51 ∨ d ∣ 15 := by decide +kernel
  have hdvd : Function.minimalPeriod (gfDouble prim) 1 ∣ 255 := Function.IsPeriodicPt.minimalPeriod_dvd h255
  rcases hproper _ (Nat.mem_divisors.2 ⟨hdvd, by decide⟩) with h | h | h | h
  · exact h
  · exact absurd (Function.isPeriodicPt_iff_minimalPeriod_dvd.2 h) h85
  · exact absurd (Function.isPeriodicPt_iff_minimalPeriod_dvd.2 h) h51
  · exact absurd (Function.isPeriodicPt_iff_minimalPeriod_dvd.2 h) h15

theorem gfExp_mod (hprim : gfPrimitive prim = true) (i : Nat) : gfExp prim (i % 255) = gfExp prim i := by
  rw [gfExp_eq_iterate, gfExp_eq_iterate, ← minimalPeriod_gfDouble hprim, Function.iterate_mod_minimalPeriod_eq]

theorem gfExp_injOn (hprim : gfPrimitive prim = true) : Set.InjOn (gfExp prim) (Finset.range 255) := by
  have hinj := Function.iterate_injOn_Iio_minimalPeriod (f := gfDouble prim) (x := 1)
  simpa only [minimalPeriod_gfDouble hprim, ← gfExp_eq_iterate, Finset.coe_range] using hinj

/-- A power of `α` has an inverse: the power that completes its exponent to a multiple of 255. -/
theorem gfExp_ne_zero (hprim : gfPrimitive prim = true) (i : Nat) : gfExp prim i ≠ 0 := by
  intro h0
  have hinv : gmul prim (gfExp prim i) (gfExp prim (254 * i)) = 1 := by
    rw [gmul_gfExp, ← gfExp_mod hprim, show (i + 254 * i) % 255 = 0 by omega, gfExp]
  rw [h0] at hinv
  simp at hinv

/-- 255 distinct powers of `α` exhaust the 255 nonzero bytes. -/
theorem exists_gfExp_eq (hprim : gfPrimitive prim = true) {b : Byte} (hb : b ≠ 0) : ∃ i < 255, gfExp prim i = b := by
  have hmaps : Set.MapsTo (gfExp prim) (Finset.range 255) (Finset.univ.erase (0 : Byte)) := fun i _ => by
    simpa using gfExp_ne_zero hprim i
  have hcard : (Finset.univ.erase (0 : Byte)).card ≤ (Finset.range 255).card := by
    rw [Finset.card_erase_of_mem (Finset.mem_univ _), Finset.card_univ, ← FinEnum.card_eq_fintypeCard,
      FinEnum.card_bitVec, Finset.card_range]
    decide
  obtain ⟨i, hi, h⟩ := Finset.surjOn_of_injOn_of_card_le _ hmaps (gfExp_injOn hprim) hcard (by simpa using hb)
  exact ⟨i, Finset.mem_range.1 hi, h⟩

/-- EXP inverts LOG on the nonzero bytes (42_rs129.md R140). -/
theorem gfExp_gfLog (hprim : gfPrimitive prim = true) {b : Byte} (hb : b ≠ 0) : gfExp prim (gfLog prim b) = b := by
  obtain ⟨i, hi, h⟩ := exists_gfExp_eq hprim hb
  have hfound : (List.range 255).findIdx (fun i => gfExp prim i = b) < (List.range 255).length :=
    List.findIdx_lt_length_of_exists ⟨i, List.mem_range.2 hi, by simpa using h⟩
  simpa [gfLog] using List.findIdx_getElem (w := hfound)

/-- The product by EXP and LOG (42_rs129.md R141). -/
theorem gmul_eq_gfExp_gfLog (hprim : gfPrimitive prim = true) (a b : Byte) :
    gmul prim a b =
      if a = 0 ∨ b = 0 then 0 else gfExp prim ((gfLog prim a + gfLog prim b) % 255) := by
  split
  next hzero => rcases hzero with rfl | rfl <;> simp
  next hne =>
    obtain ⟨ha, hb⟩ := not_or.1 hne
    rw [gfExp_mod hprim, ← gmul_gfExp, gfExp_gfLog hprim ha, gfExp_gfLog hprim hb]

theorem gmul_comm (hprim : gfPrimitive prim = true) (a b : Byte) : gmul prim a b = gmul prim b a := by
  simp only [gmul_eq_gfExp_gfLog hprim, or_comm, Nat.add_comm]

/-- With a zero factor both sides are zero; else all three factors are powers of `α`, whose exponents add. -/
theorem gmul_assoc (hprim : gfPrimitive prim = true) (a b c : Byte) :
    gmul prim (gmul prim a b) c = gmul prim a (gmul prim b c) := by
  by_cases hzero : a = 0 ∨ b = 0 ∨ c = 0
  · rcases hzero with rfl | rfl | rfl <;> simp
  · simp only [not_or] at hzero
    obtain ⟨ha, hb, hc⟩ := hzero
    rw [← gfExp_gfLog hprim ha, ← gfExp_gfLog hprim hb, ← gfExp_gfLog hprim hc]
    simp only [gmul_gfExp, Nat.add_assoc]

end

/-! ### The default polynomial (R141) -/

theorem gfPrimitive_0x11D : gfPrimitive 0x11D = true := by decide +kernel

/-- Settles O33: 0x11D is primitive, so the laws of the product hold at it. -/
theorem fieldProductFollowsExpAndLog : Obligations.FieldProductFollowsExpAndLog :=
  ⟨gmul_eq_gfExp_gfLog gfPrimitive_0x11D, gmul_comm gfPrimitive_0x11D, gmul_assoc gfPrimitive_0x11D,
    gmul_xor 0x11D, by decide⟩

end Sys2Proof.Machine
end

section
/-! PROOFS. The header builder (43_header.md). First each stage bit by bit, as a stream MSB-first and for any tables: the
Golay bytes, the sync overwrite and the slot-type splice. These compose to the provenance of every carrier bit. The
obligation is that law at the default tables, with the block LC_ENC leaves in OBUF as the operand of BPTC_ENC. -/

namespace Sys2Proof.Machine

/-! ### Bit streams -/

theorem msbStream_eq_getLsbD {n : Nat} (b : Vector Byte n) {i : Nat} (h : i / 8 < n) :
    msbStream b i = b[i / 8].getLsbD (7 - i % 8) := by
  simp [msbStream, Vector.getD, h]

/-- The codeword's three bytes are its 20 bits from `C[19]` down (40_golay.md R102). -/
theorem msbStream_golayBytes (T : Tables) (d : Byte) {i : Nat} (h : i < 20) :
    msbStream (golayBytes T d) i = (golayCodeword T d).getLsbD (19 - i) := by
  rw [msbStream_eq_getLsbD _ (by omega), golayCodeword, BitVec.getLsbD_append]
  have hbyte : i / 8 = 0 ∨ i / 8 = 1 ∨ i / 8 = 2 := by omega
  rcases hbyte with h0 | h1 | h2
  · rw [if_neg (by omega), show 19 - i - 12 = 7 - i % 8 by omega]
    simp [golayBytes, h0]
  · rw [if_pos (by omega), show 19 - i = 4 + (7 - i % 8) by omega]
    simp [golayBytes, h1, show 7 - i % 8 < 8 by omega]
  · rw [if_pos (by omega), show 19 - i = 7 - i % 8 - 4 by omega]
    have hlast : (golayBytes T d)[i / 8] = (golayParity T d).extractLsb' 0 4 ++ 0#4 := by simp [golayBytes, h2]
    rw [hlast, BitVec.getLsbD_append, if_neg (by omega)]
    simp [show 7 - i % 8 - 4 < 4 by omega]

/-! ### The stages of their own (R163, R164) -/

/-- The sync overwrite replaces carrier bits 104 to 159 and no other (43_header.md R163). -/
theorem msbStream_overwriteSync (k : Vector Byte 33) (sync : Vector Byte 7) {n : Nat} (h : n < 264) :
    msbStream (overwriteSync k sync) n =
      if 104 ≤ n ∧ n < 160 then msbStream sync (n - 104) else msbStream k n := by
  rw [msbStream_eq_getLsbD _ (by omega), getElem_overwriteSync]
  by_cases hsync : 104 ≤ n ∧ n < 160
  · have hbyte : (n - 104) / 8 = n / 8 - 13 := by omega
    have hbit : (n - 104) % 8 = n % 8 := by omega
    rw [if_pos hsync, if_pos (by omega), msbStream_eq_getLsbD _ (by omega)]
    simp [hbyte, hbit, show n / 8 - 13 < 7 by omega]
  · rw [if_neg hsync, if_neg (by omega), msbStream_eq_getLsbD _ (by omega)]

/-- The splice writes bytes 12, 13, 19 and 20 only. -/
theorem getElem_spliceSlotType_other (k : Vector Byte 33) (g : Vector Byte 3) {i : Nat} (h : i < 33)
    (hi : i ≠ 12 ∧ i ≠ 13 ∧ i ≠ 19 ∧ i ≠ 20) : (spliceSlotType k g)[i] = k[i] := by
  obtain ⟨h12, h13, h19, h20⟩ := hi
  simp [spliceSlotType, h12.symm, h13.symm, h19.symm, h20.symm]

/-- The splice puts the first 10 bits of the slot type's bytes at 98 to 107 and the next 10 at 156 to 165, and its masks
keep every other bit of the four bytes they merge (43_header.md R164). -/
theorem msbStream_spliceSlotType (k : Vector Byte 33) (g : Vector Byte 3) {n : Nat} (h : n < 264) :
    msbStream (spliceSlotType k g) n =
      if 98 ≤ n ∧ n < 108 then msbStream g (n - 98)
      else if 156 ≤ n ∧ n < 166 then msbStream g (n - 146)
      else msbStream k n := by
  have hbytes : (96 ≤ n ∧ n < 112) ∨ (152 ≤ n ∧ n < 168) ∨
      (n / 8 ≠ 12 ∧ n / 8 ≠ 13 ∧ n / 8 ≠ 19 ∧ n / 8 ≠ 20) := by omega
  rcases hbytes with ⟨hlo, hhi⟩ | ⟨hlo, hhi⟩ | hother
  · interval_cases n <;> simp [msbStream_eq_getLsbD, spliceSlotType]
  · interval_cases n <;> simp [msbStream_eq_getLsbD, spliceSlotType]
  · rw [if_neg (by omega), if_neg (by omega), msbStream_eq_getLsbD _ (by omega), msbStream_eq_getLsbD _ (by omega),
      getElem_spliceSlotType_other k g (by omega) hother]

/-- The slot type's codeword, spliced in: `C[19..10]` at 98 to 107 and `C[9..0]` at 156 to 165 (43_header.md R164). -/
theorem msbStream_spliceSlotType_golayBytes (T : Tables) (k : Vector Byte 33) (st : Byte) {n : Nat} (h : n < 264) :
    msbStream (spliceSlotType k (golayBytes T st)) n =
      if 98 ≤ n ∧ n < 108 then (golayCodeword T st).getLsbD (19 - (n - 98))
      else if 156 ≤ n ∧ n < 166 then (golayCodeword T st).getLsbD (9 - (n - 156))
      else msbStream k n := by
  rw [msbStream_spliceSlotType _ _ h]
  split_ifs with hhigh hlow
  · rw [msbStream_golayBytes T st (by omega)]
  · rw [msbStream_golayBytes T st (by omega), show 19 - (n - 146) = 9 - (n - 156) by omega]
  · rfl

/-! ### The whole carrier (R165) -/

/-- Where every bit of the header carrier comes from, for any tables: the splice, made last, cuts the sync's 56 bits down
to 48 (43_header.md R165). -/
theorem msbStream_headerCarrier (T : Tables) (dst src : Ident) (st : Byte) (sync : Vector Byte 7) {n : Nat}
    (h : n < 264) :
    msbStream (headerCarrier T dst src st sync) n =
      if n < 98 then msbStream (bptc T (linkControl T dst src)) n
      else if n < 108 then (golayCodeword T st).getLsbD (19 - (n - 98))
      else if n < 156 then msbStream sync (n - 104)
      else if n < 166 then (golayCodeword T st).getLsbD (9 - (n - 156))
      else msbStream (bptc T (linkControl T dst src)) n := by
  rw [headerCarrier, msbStream_spliceSlotType_golayBytes _ _ _ h, msbStream_overwriteSync _ _ h]
  generalize bptc T (linkControl T dst src) = k
  grind

/-! ### HDR_BUILD -/

/-- The block LC_ENC leaves at the start of OBUF, copied to IBUF, is the operand BPTC_ENC encodes (43_header.md R162). -/
theorem operandBytes_of_resultBytes {n : Nat} (s : State) (hn : n ≤ 33) (b : Vector Byte n)
    (h : ∀ i : Fin n, s.ibuf[i.val] = (resultBytes b.toList)[i.val]) : operandBytes s n hn = b := by
  refine Vector.ext fun i hi => ?_
  rw [getElem_operandBytes, h ⟨i, hi⟩, getElem_resultBytes]
  simp [hi]

/-- Settles O38: LC_ENC's OBUF holds the block HDR_BUILD encodes, so the BPTC bits of both carriers are the same, and the
law of the header carrier says where the others come from. -/
theorem hdrBuildProvenance : Obligations.HdrBuildProvenance := by
  intro s
  refine ⟨decode_encode .hdrBuild, _, _, exec_lcEnc s, exec_hdrBuild s, rfl, fun v hv => ?_⟩
  have hblock : operandBytes { s with ibuf := v } 12 (by decide) =
      linkControl defaultTables (operandDst s) (operandSrc s) := operandBytes_of_resultBytes _ _ _ hv
  refine ⟨_, exec_bptcEnc _, fun n => ?_⟩
  simp only [carrierBitOf, resultBytes_toList, hblock]
  exact msbStream_headerCarrier defaultTables _ _ _ _ n.isLt

end Sys2Proof.Machine
end

section
/-! PROOFS. The deinterleavers and the demultiplexer (44_deinterleave.md). First the two orders in which the families
read a unit's bits: either determines the bytes. Then each deinterleaver, for any tables that name no cell twice: its
cells read back the stream, so it loses nothing. Last the bytes DMR_DEMUX leaves in OBUF. -/

namespace Sys2Proof.Machine

/-! ### A unit's bits determine it (R181, R184) -/

theorem lsbStream_eq_getLsbD {n : Nat} (b : Vector Byte n) {i j : Nat} (hi : i < n) (hj : j < 8) :
    lsbStream b (8 * i + j) = b[i].getLsbD j := by
  have hbyte : (8 * i + j) / 8 = i := by omega
  have hbit : (8 * i + j) % 8 = j := by omega
  simp [lsbStream, Vector.getD, hbyte, hbit, hi]

theorem eq_of_lsbStream_eq {n : Nat} {x y : Vector Byte n} (h : ∀ k < 8 * n, lsbStream x k = lsbStream y k) :
    x = y := by
  refine Vector.ext fun i hi => BitVec.eq_of_getLsbD_eq fun j hj => ?_
  rw [← lsbStream_eq_getLsbD x hi hj, ← lsbStream_eq_getLsbD y hi hj]
  exact h _ (by omega)

section
variable {n : Nat} (b : Vector Byte n) {i m : Nat}

theorem dibitHigh_eq_getLsbD (hi : i < n) (hm : m < 4) : dibitHigh b (4 * i + m) = b[i].getLsbD (7 - 2 * m) := by
  have hbyte : (4 * i + m) / 4 = i := by omega
  simp [dibitHigh, Vector.getD, hbyte, Nat.mod_eq_of_lt hm, hi]

theorem dibitLow_eq_getLsbD (hi : i < n) (hm : m < 4) : dibitLow b (4 * i + m) = b[i].getLsbD (6 - 2 * m) := by
  have hbyte : (4 * i + m) / 4 = i := by omega
  simp [dibitLow, Vector.getD, hbyte, Nat.mod_eq_of_lt hm, hi]

end

/-- Bit `j` of a byte is in its dibit `3 - j / 2`: an odd bit is the dibit's high bit, an even one its low bit. -/
theorem eq_of_dibits_eq {n : Nat} {x y : Vector Byte n}
    (h : ∀ k < 4 * n, dibitHigh x k = dibitHigh y k ∧ dibitLow x k = dibitLow y k) : x = y := by
  refine Vector.ext fun i hi => BitVec.eq_of_getLsbD_eq fun j hj => ?_
  have hm : 3 - j / 2 < 4 := by omega
  obtain ⟨hhigh, hlow⟩ := h (4 * i + (3 - j / 2)) (by omega)
  rcases Nat.mod_two_eq_zero_or_one j with heven | hodd
  · have hbit : 6 - 2 * (3 - j / 2) = j := by omega
    rwa [dibitLow_eq_getLsbD x hi hm, dibitLow_eq_getLsbD y hi hm, hbit] at hlow
  · have hbit : 7 - 2 * (3 - j / 2) = j := by omega
    rwa [dibitHigh_eq_getLsbD x hi hm, dibitHigh_eq_getLsbD y hi hm, hbit] at hhigh

/-! ### The deinterleavers read back, for any tables (R189) -/

/-- The cells the Family B writes name are the configuration's, in another order. -/
theorem writesB_cells_perm (T : Tables) (unit : Vector Byte 9) : ((writesB T unit).map Prod.fst).Perm T.cellsB := by
  rw [writesB, List.map_flatMap, Tables.cellsB, List.map_eq_flatMap, List.map_eq_flatMap]
  exact List.Perm.symm (List.flatMap_append_perm (List.finRange 36) (fun k => [(T.tabBW[k.val], T.tabBX[k.val])])
    fun k => [(T.tabBY[k.val], T.tabBZ[k.val])])

theorem writesB_cells_nodup {T : Tables} (hT : T.cellsB.Nodup) (unit : Vector Byte 9) :
    ((writesB T unit).map Prod.fst).Nodup :=
  (writesB_cells_perm T unit).nodup_iff.2 hT

section
variable {T : Tables} (x : Vector Byte 9)

/-- Family A's cell of stream bit `k` holds that bit. -/
theorem cell_deinterleaveA (hT : T.cellsA.Nodup) (k : Fin 72) :
    cell (deinterleaveA T x) T.tabAW[k.val] T.tabAX[k.val] = lsbStream x k.val := by
  apply cell_scatterCells_mem
  · rw [writesA_cells]; exact hT
  · exact List.mem_map.2 ⟨k, List.mem_finRange k, rfl⟩

/-- Family B's two cells of dibit `k` hold its two bits. -/
theorem cell_deinterleaveB (hT : T.cellsB.Nodup) (k : Fin 36) :
    cell (deinterleaveB T x) T.tabBW[k.val] T.tabBX[k.val] = dibitHigh x k.val ∧
      cell (deinterleaveB T x) T.tabBY[k.val] T.tabBZ[k.val] = dibitLow x k.val :=
  ⟨cell_scatterCells_mem _ _ _ _ _ (writesB_cells_nodup hT x)
      (List.mem_flatMap.2 ⟨k, List.mem_finRange k, List.mem_cons_self⟩),
    cell_scatterCells_mem _ _ _ _ _ (writesB_cells_nodup hT x)
      (List.mem_flatMap.2 ⟨k, List.mem_finRange k, List.mem_cons_of_mem _ List.mem_cons_self⟩)⟩

end

theorem deinterleaveA_injective {T : Tables} (hT : T.cellsA.Nodup) : Function.Injective (deinterleaveA T) := by
  intro x y h
  refine eq_of_lsbStream_eq fun k hk => ?_
  rw [← cell_deinterleaveA x hT ⟨k, hk⟩, ← cell_deinterleaveA y hT ⟨k, hk⟩, h]

theorem deinterleaveB_injective {T : Tables} (hT : T.cellsB.Nodup) : Function.Injective (deinterleaveB T) := by
  intro x y h
  refine eq_of_dibits_eq fun k hk => ?_
  obtain ⟨hxHigh, hxLow⟩ := cell_deinterleaveB x hT ⟨k, hk⟩
  obtain ⟨hyHigh, hyLow⟩ := cell_deinterleaveB y hT ⟨k, hk⟩
  exact ⟨by rw [← hxHigh, ← hyHigh, h], by rw [← hxLow, ← hyLow, h]⟩

/-- Settles O42: with distinct cells no write overwrites another, so the cells read back every bit of the unit, and these
determine it. -/
theorem deinterleaversAreInvertible : Obligations.DeinterleaversAreInvertible :=
  ⟨fun _ x hT => cell_deinterleaveA x hT, fun _ x hT => cell_deinterleaveB x hT,
    fun _ _ _ hT h => deinterleaveA_injective hT h, fun _ _ _ hT h => deinterleaveB_injective hT h⟩

/-! ### DMR_DEMUX (R187, R188) -/

/-- OBUF holds the result bytes from its start on. -/
theorem getElem_resultBytes_toList_of_lt {n : Nat} (v : Vector Byte n) {i : Nat} (h : i < 33) (hi : i < n) :
    (resultBytes v.toList)[i] = v[i] := by
  rw [getElem_resultBytes]
  simp [hi]

/-- OBUF is 0x00 past the result bytes. -/
theorem getElem_resultBytes_toList_of_le {n : Nat} (v : Vector Byte n) {i : Nat} (h : i < 33) (hi : n ≤ i) :
    (resultBytes v.toList)[i] = 0x00 := by
  rw [getElem_resultBytes]
  simp [hi]

section
variable (nib : Bool) (p : Vector Byte 33)

/-- Bytes 0 to 12 go through. -/
theorem demuxBytes_head {i : Nat} (h : i < 13) : (demuxBytes nib p)[i] = p[i] := by
  rw [getElem_demuxBytes, if_pos h]

/-- Byte 13 keeps its high nibble; the low one is byte 19's, as CFG.DEMUX_NIB chooses it. -/
theorem demuxBytes_13 : (demuxBytes nib p)[13] = p[13].extractLsb' 4 4 ++ demuxNibble nib p[19] := by
  rw [getElem_demuxBytes, if_neg (by omega), if_pos rfl]

/-- Bytes 20 to 32 close the gap. -/
theorem demuxBytes_tail {i : Nat} (h : i < 13) : (demuxBytes nib p)[14 + i] = p[20 + i] := by
  rw [getElem_demuxBytes, if_neg (by omega), if_neg (by omega)]
  congr 1
  omega

end

/-- Settles O44: OBUF is the 27 demultiplexed bytes and six zeros, so each clause reads off one of their ranges. -/
theorem dmrDemuxResult : Obligations.DmrDemuxResult := by
  intro s
  have hbyte {i : Nat} (hi : i < 27) :
      (resultBytes (demuxBytes s.demuxNib s.ibuf).toList)[i] = (demuxBytes s.demuxNib s.ibuf)[i] :=
    getElem_resultBytes_toList_of_lt _ (by omega) hi
  have h13 : (resultBytes (demuxBytes s.demuxNib s.ibuf).toList)[13] =
      s.ibuf[13].extractLsb' 4 4 ++ demuxNibble s.demuxNib s.ibuf[19] :=
    (hbyte (by decide)).trans (demuxBytes_13 _ _)
  refine ⟨decode_encode .dmrDemux, _, exec_dmrDemux s, rfl, ?head, ?high, ?nib0, ?nib1, ?tail, ?zeros, ?worked⟩
  case head => exact fun i => (hbyte (by omega)).trans (demuxBytes_head _ _ i.isLt)
  case high => rw [h13, BitVec.extractLsb'_append_eq_left]
  case nib0 => exact fun hnib => by rw [h13, BitVec.extractLsb'_append_eq_right, hnib]; rfl
  case nib1 => exact fun hnib => by rw [h13, BitVec.extractLsb'_append_eq_right, hnib]; rfl
  case tail => exact fun i => (hbyte (by omega)).trans (demuxBytes_tail _ _ i.isLt)
  case zeros => exact fun i hi => getElem_resultBytes_toList_of_le _ i.isLt hi
  case worked =>
    intro hcount
    have h13c : s.ibuf[13] = 13#8 := hcount 13
    have h19c : s.ibuf[19] = 19#8 := hcount 19
    rw [h13, h13c, h19c]
    cases s.demuxNib <;> rfl

end Sys2Proof.Machine
end

section
/-! PROOFS. The slow-data assembler's two commands (45_slowdata.md §2). First the facts that tie the assembler's own reading
of a frame and of a step to the spec's, then what presenting a frame gives in each row of R212's table, then R211 and
R212. -/

namespace Sys2Proof.Machine

/-! ### The control state and SD_STATE (R200) -/

/-- An armed assembler is in Armed(n) for one of the eight steps (45_slowdata.md R200). -/
theorem exists_armed_of_sdArmed {s : State} (h : sdArmed s = true) : ∃ n, s.sdCtl = .armed n := by
  cases hc : s.sdCtl with
  | disarmed => simp [sdArmed_disarmed hc] at h
  | armed n => exact ⟨n, rfl⟩

/-- SD_ARMED = 0 in the disarmed state alone (45_slowdata.md R200). -/
theorem disarmed_of_not_sdArmed {s : State} (h : sdArmed s = false) : s.sdCtl = .disarmed := by
  cases hc : s.sdCtl with
  | disarmed => rfl
  | armed n => simp [sdArmed_armed hc] at h

/-- SD_STATE is read at 0x90 (10_state.md R31). -/
theorem memRead_sdState (s : State) : memRead 0x90 s = sdStateView s := rfl

/-- Disarmed with no text, SD_STATE reads 0x00 (10_state.md R49). -/
theorem sdStateView_of_disarmed {s : State} (hc : s.sdCtl = .disarmed) (hv : s.sdTvalid = false) :
    sdStateView s = 0x00 := by
  rw [sdStateView, sdStep_disarmed hc, sdArmed_disarmed hc, hv]
  rfl

/-! ### The frame in IBUF and the step it is for (R201 to R206) -/

/-- The sync test looks for the sync frame in IBUF[0..3] (45_slowdata.md R203). -/
theorem isSyncFrame_operands_iff (s : State) :
    isSyncFrame (operandSeq s) (operandAux s) = true ↔ HoldsSyncFrame s := by
  rw [isSyncFrame, Bool.and_eq_true, decide_eq_true_iff, decide_eq_true_iff]
  simp [HoldsSyncFrame, operandSeq, operandAux, sdSync]

/-- The frame counter and a step number are compared as numbers (45_slowdata.md R204). -/
theorem operandSeq_eq_num_iff (s : State) (n : SdStep) :
    operandSeq s = n.num.setWidth 8 ↔ s.ibuf[0].toNat = n.num.toNat := by
  rw [← BitVec.toNat_inj, BitVec.toNat_setWidth_of_le (by decide)]
  rfl

/-- The expected frame finds the assembler in Armed(n) and carries that `n`. -/
theorem HoldsExpectedStep.exists_armed {s : State} (h : HoldsExpectedStep s) :
    ∃ n, s.sdCtl = .armed n ∧ operandSeq s = n.num.setWidth 8 := by
  obtain ⟨harmed, hseq⟩ := h
  obtain ⟨n, hc⟩ := exists_armed_of_sdArmed harmed
  exact ⟨n, hc, (operandSeq_eq_num_iff s n).2 (sdStep_armed hc ▸ hseq)⟩

/-- An armed assembler given another counter is in Armed(n) for an `n` that the frame does not carry. -/
theorem exists_armed_of_other_seq {s : State} (harmed : sdArmed s = true) (hseq : s.ibuf[0].toNat ≠ (sdStep s).toNat) :
    ∃ n, s.sdCtl = .armed n ∧ operandSeq s ≠ n.num.setWidth 8 := by
  obtain ⟨n, hc⟩ := exists_armed_of_sdArmed harmed
  exact ⟨n, hc, mt (operandSeq_eq_num_iff s n).1 (sdStep_armed hc ▸ hseq)⟩

/-- The expected frame is no sync: its counter is at least 1. -/
theorem HoldsExpectedStep.not_sync {s : State} (h : HoldsExpectedStep s) : ¬ HoldsSyncFrame s := by
  obtain ⟨harmed, hseq⟩ := h
  rintro ⟨hzero, -⟩
  obtain ⟨hpos, -⟩ := sdStep_bounds harmed
  rw [← hseq, hzero] at hpos
  exact absurd hpos (by decide)

/-- BASE[n] by the step's number (45_slowdata.md R201). -/
theorem SdStep.base_eq_baseOf (n : SdStep) : n.base = baseOf n.num.toNat := by cases n <;> rfl

/-- The recovered bytes by the parity of the step's number (45_slowdata.md R205). -/
theorem SdStep.recovered_eq_recoveredOf (n : SdStep) (s : State) :
    n.recovered (unscramble (operandAux s)) = recoveredOf n.num.toNat s := by cases n <;> rfl

/-- The default markers, by the step's number: 0x40 to 0x43 on the odd steps (45_slowdata.md R201). -/
theorem SdStep.marker_defaultTables (n : SdStep) :
    n.marker defaultTables =
      if n.num.toNat % 2 = 1 then some (BitVec.ofNat 8 (0x40 + (n.num.toNat - 1) / 2)) else none := by
  cases n <;> rfl

/-- The marker test with the default markers is the spec's (45_slowdata.md R206). -/
theorem markerMatches_defaultTables_iff (n : SdStep) (s : State) :
    markerMatches defaultTables n (unscramble (operandAux s)) = true ↔ MarkerHolds n.num.toNat s := by
  unfold markerMatches MarkerHolds
  rw [SdStep.marker_defaultTables]
  by_cases hodd : n.num.toNat % 2 = 1
  · have hmarker : (BitVec.ofNat 8 (0x40 + (n.num.toNat - 1) / 2)).toNat = 0x40 + (n.num.toNat - 1) / 2 := by
      rw [BitVec.toNat_ofNat, Nat.mod_eq_of_lt (by omega)]
    rw [if_pos hodd, forall_prop_of_true hodd, ← hmarker, BitVec.toNat_inj, hmarker]
    exact decide_eq_true_iff
  · rw [if_neg hodd]
    exact iff_of_true rfl fun h => absurd h hodd

/-- The steps 1 to 7 have a successor, with the next number (45_slowdata.md R207). -/
theorem SdStep.exists_next {n : SdStep} (h : n.num.toNat ≤ 7) :
    ∃ n', n.next = some n' ∧ n'.num.toNat = n.num.toNat + 1 := by
  cases n with
  | s8 => exact absurd h (by decide)
  | _ => exact ⟨_, rfl, rfl⟩

theorem SdStep.eq_s8_of_num {n : SdStep} (h : n.num = 8) : n = .s8 := by
  revert h; cases n <;> decide

/-! ### Presenting the frame in IBUF, row by row (R212) -/

section
variable (T : Tables) {s : State} {n : SdStep}

/-- Any state, sync. -/
theorem presentFrame_of_sync (h : HoldsSyncFrame s) :
    presentFrame T (operandSeq s) (operandAux s) s = (armOnSync s, .sync) := by
  rw [presentFrame, if_pos ((isSyncFrame_operands_iff s).2 h)]

/-- Disarmed, not sync. -/
theorem presentFrame_of_disarmed (h : ¬ HoldsSyncFrame s) (hc : s.sdCtl = .disarmed) :
    presentFrame T (operandSeq s) (operandAux s) s = (s, .idle) := by
  rw [presentFrame, if_neg (mt (isSyncFrame_operands_iff s).1 h)]
  simp only [hc]

/-- Armed(n), neither sync nor `seq = n`, SD_SKIP = 0. -/
theorem presentFrame_of_seq_ignored (h : ¬ HoldsSyncFrame s) (hc : s.sdCtl = .armed n)
    (hseq : operandSeq s ≠ n.num.setWidth 8) (hskip : s.sdSkip = false) :
    presentFrame T (operandSeq s) (operandAux s) s = (s, .seqIgnore) := by
  rw [presentFrame, if_neg (mt (isSyncFrame_operands_iff s).1 h)]
  simp [hc, hseq, hskip]

/-- Armed(n), neither sync nor `seq = n`, SD_SKIP = 1. -/
theorem presentFrame_of_seq_disarms (h : ¬ HoldsSyncFrame s) (hc : s.sdCtl = .armed n)
    (hseq : operandSeq s ≠ n.num.setWidth 8) (hskip : s.sdSkip = true) :
    presentFrame T (operandSeq s) (operandAux s) s = (disarm s, .seqDisarm) := by
  rw [presentFrame, if_neg (mt (isSyncFrame_operands_iff s).1 h)]
  simp [hc, hseq, hskip]

/-- Armed(n), `seq = n`: the marker test decides. -/
theorem presentFrame_of_expected (h : ¬ HoldsSyncFrame s) (hc : s.sdCtl = .armed n)
    (hseq : operandSeq s = n.num.setWidth 8) :
    presentFrame T (operandSeq s) (operandAux s) s =
      if markerMatches T n (unscramble (operandAux s)) then acceptStep n (unscramble (operandAux s)) s
      else (disarm s, .markerFail) := by
  rw [presentFrame, if_neg (mt (isSyncFrame_operands_iff s).1 h)]
  simp only [hc, if_neg (not_not.2 hseq)]

/-- A step with a successor places its bytes and expects the next step (45_slowdata.md R207). -/
theorem acceptStep_of_next {n' : SdStep} (hn : n.next = some n') (s : State) :
    acceptStep n (unscramble (operandAux s)) s =
      ({ s with
          sdCtl := .armed n'
          sdBuf := writeBytes s.sdBuf (baseOf n.num.toNat) (recoveredOf n.num.toNat s) }, .step) := by
  simp only [acceptStep, hn, SdStep.base_eq_baseOf, SdStep.recovered_eq_recoveredOf, State.withSdBuf, State.withSdCtl]

/-- A step without a successor emits what SD_BUF holds with its bytes, and disarms (45_slowdata.md R208). -/
theorem acceptStep_of_next_none (hn : n.next = none) (s : State) :
    acceptStep n (unscramble (operandAux s)) s =
      ({ s with
          sdCtl := .disarmed
          sdBuf := zeroBytes 20
          sdText := (writeBytes s.sdBuf (baseOf n.num.toNat) (recoveredOf n.num.toNat s)).push 0x00
          sdTvalid := true }, .emit) := by
  simp only [acceptStep, hn, SdStep.base_eq_baseOf, SdStep.recovered_eq_recoveredOf, disarm_eq, emitText_eq]

end

/-! ### The two commands -/

/-- Settles O45: SD_RESET's equation gives every field; in the assembler's reset state it rewrites three of them with the
values they have. -/
theorem sdResetResult : Obligations.SdResetResult := by
  intro s
  refine ⟨decode_encode .sdReset, _, exec_sdReset s, rfl, rfl, rfl,
    fun i => getElem_zeroBytes 20 i.val i.isLt, ?view, ?idle⟩
  case view => exact (memRead_sdState _).trans (sdStateView_of_disarmed rfl rfl)
  case idle =>
    intro harmed htvalid hbuf
    have hzero : s.sdBuf = zeroBytes 20 := Vector.ext fun i hi => by simpa using hbuf ⟨i, hi⟩
    rw [← disarmed_of_not_sdArmed harmed, ← hzero, ← htvalid]

/-- Settles O46: the command's frame and STATUS fields hold in every row; each row then reads off what presenting its frame
gives. -/
theorem sdFrameTransitionTable : Obligations.SdFrameTransitionTable := by
  intro s
  refine ⟨decode_encode .sdFrame, _, exec_sdFrame s, ?frame, statusLastOp_statusWord _ _ _, statusErr_statusWord _ _ _,
    ?sync, ?disarmed, ?ignore, ?skip, ?marker, ?step, ?emit⟩
  case frame => rw [presentFrame_frame]
  case sync =>
    intro hsync
    rw [presentFrame_of_sync _ hsync]
    exact ⟨rfl, rfl, fun i => getElem_zeroBytes 20 i.val i.isLt, rfl, rfl, statusSdEv_statusWord _ _ _⟩
  case disarmed =>
    intro hsync harmed
    rw [presentFrame_of_disarmed _ hsync (disarmed_of_not_sdArmed harmed)]
    exact ⟨rfl, statusSdEv_statusWord _ _ _⟩
  case ignore =>
    intro hsync harmed hseq hskip
    obtain ⟨n, hc, hother⟩ := exists_armed_of_other_seq harmed hseq
    rw [presentFrame_of_seq_ignored _ hsync hc hother hskip]
    exact ⟨rfl, statusSdEv_statusWord _ _ _⟩
  case skip =>
    intro hsync harmed hseq hskip
    obtain ⟨n, hc, hother⟩ := exists_armed_of_other_seq harmed hseq
    rw [presentFrame_of_seq_disarms _ hsync hc hother hskip]
    exact ⟨rfl, rfl, fun i => getElem_zeroBytes 20 i.val i.isLt, rfl, rfl, statusSdEv_statusWord _ _ _⟩
  case marker =>
    intro hexp hmarker
    obtain ⟨n, hc, hseq⟩ := hexp.exists_armed
    rw [sdStep_armed hc, ← markerMatches_defaultTables_iff] at hmarker
    rw [presentFrame_of_expected _ hexp.not_sync hc hseq, if_neg hmarker]
    exact ⟨rfl, rfl, fun i => getElem_zeroBytes 20 i.val i.isLt, rfl, rfl, statusSdEv_statusWord _ _ _⟩
  case step =>
    intro hexp hmarker hle
    obtain ⟨n, hc, hseq⟩ := hexp.exists_armed
    rw [sdStep_armed hc] at hmarker hle ⊢
    obtain ⟨n', hn, hnum⟩ := SdStep.exists_next hle
    rw [presentFrame_of_expected _ hexp.not_sync hc hseq, if_pos ((markerMatches_defaultTables_iff n s).2 hmarker),
      acceptStep_of_next hn]
    exact ⟨rfl, hnum, fun i => getElem_writeBytes _ _ _ i.val i.isLt, rfl, rfl, statusSdEv_statusWord _ _ _⟩
  case emit =>
    intro hexp hstep
    obtain ⟨n, hc, hseq⟩ := hexp.exists_armed
    obtain rfl := SdStep.eq_s8_of_num ((sdStep_armed hc).symm.trans hstep)
    have hmarker : markerMatches defaultTables .s8 (unscramble (operandAux s)) = true := rfl
    rw [presentFrame_of_expected _ hexp.not_sync hc hseq, if_pos hmarker, acceptStep_of_next_none rfl]
    refine ⟨rfl, rfl, fun i => getElem_zeroBytes 20 i.val i.isLt, fun i => ?_, ?_, ?_, ?_, ?_, rfl,
      statusSdEv_statusWord _ _ _⟩
    · have hbefore : ¬ 17 ≤ i.val := by omega
      have hbuf : i.val < 20 := by omega
      simp [getElem_writeBytes, baseOf, SdStep.num, hbefore, hbuf]
    all_goals simp [getElem_writeBytes, baseOf, recoveredOf, SdStep.num]

end Sys2Proof.Machine
end

section
/-! PROOFS. NOP (46_control.md R231): its equation as a command, then the obligation. -/

namespace Sys2Proof.Machine

/-- NOP is a command's STATUS write with no assembler event, which leaves NOP's own word (46_control.md R231). -/
theorem exec_nop (s : State) : exec .nop s = .next { s with status := 0x00 } := by
  simp only [exec, execNop, finish_none_eq, encode]

/-- Settles O22: 0x00 is the word NOP encodes to, and NOP's equation names STATUS alone. -/
theorem nopClearsStatusOnly : Obligations.NopClearsStatusOnly := fun s =>
  ⟨decode_encode .nop, exec_nop s⟩

end Sys2Proof.Machine
end

section
/-! PROOFS. What the observer's record and the emitted text have to do with the assembler (45_slowdata.md R213). First what
one step makes of the record, by what the host issued. Then the invariant that ties the record to the assembler: each row
of R212's table keeps it. From it the emitted text, and beside it what a step may change in SD_TEXT and in the control
state. -/

namespace Sys2Proof.Machine

/-! ### The record after a step -/

/-- The record after SD_FRAME has reported the event `ev` in state `s` (10_state.md R47). -/
def logAfterEvent (ev : SdEvent) (s : State) (log : StepLog) : StepLog :=
  match ev with
  | .sync => some []
  | .step => log.map fun l => l ++ [((sdStep s).toNat, recoveredOf (sdStep s).toNat s)]
  | .emit | .markerFail | .seqDisarm => none
  | .none | .seqIgnore | .idle => log

section
variable {s : State} (t : State) (log : StepLog)

/-- An input that is no reset and issues neither SD_RESET nor SD_FRAME leaves the record as it was. -/
theorem nextLog_of_other (hr : ¬ Resets s) (hw : ∀ w, Issues s w → w ≠ 0x09 ∧ w ≠ 0x0A) : nextLog s t log = log := by
  unfold nextLog
  match hp : s.pending with
  | [] | .read _ :: _ => rfl
  | .reset :: _ => exact absurd (by simp [Resets, hp]) hr
  | .write a v :: _ =>
    have hne : a = 0xFF → v ≠ 0x09 ∧ v ≠ 0x0A := fun ha => hw v ((issues_iff_of_pending_write hp v).2 ⟨ha, rfl⟩)
    simp only [List.head?_cons]
    rw [if_neg fun h => (hne h.1).1 h.2, if_neg fun h => (hne h.1).2 h.2]

theorem nextLog_of_resets (h : Resets s) : nextLog s t log = none := by
  unfold nextLog
  rw [h]

theorem nextLog_of_issues_sdReset (h : Issues s 0x09) : nextLog s t log = none := by
  unfold nextLog
  rw [h]
  rfl

/-- SD_FRAME changes the record as the event it reports in SD_EV says. -/
theorem nextLog_of_issues_sdFrame {t : State} (h : Issues s 0x0A) {ev : SdEvent} (hev : statusSdEv t.status = ev.code) :
    nextLog s t log = logAfterEvent ev s log := by
  unfold nextLog
  rw [h]
  simp only [hev]
  cases ev <;> rfl

end

/-! ### The record's invariant -/

/-- While disarmed, no record stands. -/
theorem recordInvariant_iff_of_disarmed {s : State} (hc : s.sdCtl = .disarmed) (log : StepLog) :
    RecordInvariant s log ↔ log = none := by
  cases log <;> simp [RecordInvariant, sdArmed_disarmed hc]

/-- In Armed(n) the record holds the steps before `n`, and their bytes are SD_BUF's below `BASE[n]`. -/
theorem recordInvariant_iff_of_armed {s : State} {n : SdStep} (hc : s.sdCtl = .armed n) (log : StepLog) :
    RecordInvariant s log ↔
      ∃ l, log = some l ∧ l.map Prod.fst = List.range' 1 (n.num.toNat - 1) ∧
        l.flatMap Prod.snd = s.sdBuf.toList.take n.base := by
  cases log <;> simp [RecordInvariant, sdArmed_armed hc, sdStep_armed hc, SdStep.base_eq_baseOf]

/-- The invariant reads SD_ARMED, SD_STEP and SD_BUF alone. -/
theorem RecordInvariant.congr {s t : State} {log : StepLog} (h : RecordInvariant s log) (hc : t.sdCtl = s.sdCtl)
    (hb : t.sdBuf = s.sdBuf) : RecordInvariant t log := by
  cases hs : s.sdCtl with
  | disarmed =>
    rw [recordInvariant_iff_of_disarmed hs] at h
    rwa [recordInvariant_iff_of_disarmed (hc.trans hs)]
  | armed n =>
    rw [recordInvariant_iff_of_armed hs] at h
    rwa [recordInvariant_iff_of_armed (hc.trans hs), hb]

/-- The bytes up to the end of a write are those before it and then the bytes written. -/
theorem take_writeBytes {n : Nat} (buf : Vector Byte n) (base : Nat) (bytes : List Byte) (h : base + bytes.length ≤ n) :
    (writeBytes buf base bytes).toList.take (base + bytes.length) = buf.toList.take base ++ bytes := by
  apply List.ext_getElem
  · simp
    omega
  · intro i hi _
    have hlt : i < base + bytes.length := by simp at hi; omega
    by_cases hbase : base ≤ i
    · have hbytes : i - base < bytes.length := by omega
      have hmin : min base n = base := by omega
      simp [getElem_writeBytes, hbase, hlt, hmin, hbytes]
    · have hmin : i < min base n := by omega
      simp [getElem_writeBytes, hbase, hmin]

/-- The number of the step after `n`, as a number. -/
theorem SdStep.toNat_num_next {n n' : SdStep} (h : n.next = some n') : n'.num.toNat = n.num.toNat + 1 := by
  cases n <;> cases h <;> rfl

theorem SdStep.num_pos (n : SdStep) : 1 ≤ n.num.toNat := by cases n <;> decide

/-- Every step's bytes lie inside SD_BUF (45_slowdata.md R205). -/
theorem SdStep.base_add_length_recovered_le (n : SdStep) (u : Vector Byte 3) :
    n.base + (n.recovered u).length ≤ 20 := by cases n <;> simp [SdStep.base, SdStep.recovered]

/-- An accepted step `n` with a successor appends itself to the record and its bytes to the filled part of SD_BUF
(45_slowdata.md R205, R207). -/
theorem recordInvariant_of_step_accepted {s t : State} {log : StepLog} {n n' : SdStep} (h : RecordInvariant s log)
    (hc : s.sdCtl = .armed n) (hn : n.next = some n') (ht : t.sdCtl = .armed n')
    (hb : t.sdBuf = writeBytes s.sdBuf n.base (n.recovered (unscramble (operandAux s)))) :
    RecordInvariant t (logAfterEvent .step s log) := by
  obtain ⟨l, rfl, hsteps, hbytes⟩ := (recordInvariant_iff_of_armed hc log).1 h
  obtain ⟨-, hbase⟩ := SdStep.next_spec n n' hn (unscramble (operandAux s))
  have hpos := n.num_pos
  refine (recordInvariant_iff_of_armed ht _).2 ⟨_, rfl, ?_, ?_⟩
  · rw [List.map_append, hsteps, SdStep.toNat_num_next hn, sdStep_armed hc]
    conv_rhs => rw [show n.num.toNat + 1 - 1 = n.num.toNat - 1 + 1 by omega, List.range'_concat]
    simp
    omega
  · rw [hb, hbase, take_writeBytes _ _ _ (n.base_add_length_recovered_le _), List.flatMap_append, hbytes,
      SdStep.recovered_eq_recoveredOf, sdStep_armed hc]
    simp

/-- Presenting a frame keeps the record and the assembler in agreement, one case for each row of 45_slowdata.md R212. -/
theorem presentFrame_keeps_recordInvariant (T : Tables) {s : State} {log : StepLog} (h : RecordInvariant s log) :
    RecordInvariant (presentFrame T (operandSeq s) (operandAux s) s).1
      (logAfterEvent (presentFrame T (operandSeq s) (operandAux s) s).2 s log) := by
  have hdisarmed (u : State) : RecordInvariant (disarm u) none := (recordInvariant_iff_of_disarmed rfl none).2 rfl
  rcases presentFrame_cases T (operandSeq s) (operandAux s) s with ⟨_, hp⟩ | ⟨_, _, hp⟩ | ⟨n, _, _, _, _, hp⟩ |
    ⟨n, _, _, _, _, hp⟩ | ⟨n, _, _, _, _, hp⟩ | ⟨n, n', _, hc, _, _, hn, hp⟩ | ⟨n, _, _, _, _, _, hp⟩ <;> rw [hp]
  · exact (recordInvariant_iff_of_armed (s := armOnSync s) rfl _).2 ⟨[], rfl, rfl, rfl⟩
  · exact h
  · exact h
  · exact hdisarmed s
  · exact hdisarmed s
  · exact recordInvariant_of_step_accepted h hc hn rfl rfl
  · exact hdisarmed _

/-- Settles O60: of the four things a step can do to the assembler, presenting a frame keeps the agreement row by row of
R212, SD_RESET and reset disarm and end the record, and the rest touch neither. -/
theorem stepKeepsTheRecordInvariant : Obligations.StepKeepsTheRecordInvariant := by
  intro s t log hs h
  rcases stepWith_assembler_cases ((step_eq_stepWith s).symm.trans h) with ⟨hr, hw, hc, hb, -, -⟩ | ⟨hr, rest, rfl⟩ |
    ⟨h9, rest, rfl⟩ | ⟨hA, rest, r, hr, ht⟩
  · rw [nextLog_of_other t log hr hw]
    exact hs.congr hc hb
  · rw [nextLog_of_resets _ log hr]
    exact (recordInvariant_iff_of_disarmed rfl none).2 rfl
  · rw [nextLog_of_issues_sdReset _ log h9]
    exact (recordInvariant_iff_of_disarmed rfl none).2 rfl
  · have hev : statusSdEv t.status = r.2.code := by rw [ht, statusSdEv_statusWord]
    rw [nextLog_of_issues_sdFrame log hA hev, ht, hr]
    have hpending : RecordInvariant (s.withPending rest) log := hs.congr rfl rfl
    exact (presentFrame_keeps_recordInvariant defaultTables hpending).congr rfl rfl

/-- Settles O59: the assembler is disarmed at reset, and nothing is recorded. -/
theorem resetSatisfiesTheRecordInvariant : Obligations.ResetSatisfiesTheRecordInvariant :=
  (recordInvariant_iff_of_disarmed rfl none).2 rfl

/-! ### Emissions -/

/-- A step that issues SD_FRAME presents the frame in IBUF. -/
theorem step_of_issues_sdFrame {s t : State} (h : step s = .next t) (hA : Issues s 0x0A) :
    ∃ rest r, r = presentFrame defaultTables (operandSeq s) (operandAux s) (s.withPending rest) ∧
      t = { r.1 with status := statusWord r.2 false 0xA } := by
  rcases stepWith_assembler_cases ((step_eq_stepWith s).symm.trans h) with ⟨-, hw, -⟩ | ⟨hr, -⟩ | ⟨h9, -⟩ | ⟨-, hframe⟩
  · exact absurd rfl (hw _ hA).2
  · exact absurd (.inl hr) (not_resets_or_issues_sdReset hA)
  · exact absurd (.inr h9) (not_resets_or_issues_sdReset hA)
  · exact hframe

/-- An emission is the frame of step 8 in Armed(8), and emits what SD_BUF holds with that frame's bytes (45_slowdata.md
R208). -/
theorem presentFrame_of_emit {T : Tables} {seq : Byte} {a : Vector Byte 3} {s : State}
    (h : (presentFrame T seq a s).2 = .emit) :
    s.sdCtl = .armed .s8 ∧ seq = 0x08 ∧
      (presentFrame T seq a s).1.sdText =
        (writeBytes s.sdBuf SdStep.s8.base (SdStep.s8.recovered (unscramble a))).push 0x00 := by
  rcases presentFrame_cases T seq a s with ⟨_, hp⟩ | ⟨_, _, hp⟩ | ⟨n, _, _, _, _, hp⟩ | ⟨n, _, _, _, _, hp⟩ |
    ⟨n, _, _, _, _, hp⟩ | ⟨n, n', _, _, _, _, _, hp⟩ | ⟨n, _, hc, hseq, _, hn, hp⟩ <;> rw [hp] at h
  case inr.inr.inr.inr.inr.inr =>
    obtain ⟨rfl, -⟩ := SdStep.next_none n hn (unscramble a)
    exact ⟨hc, hseq, by rw [hp]; rfl⟩
  all_goals contradiction

/-- A frame that does not emit keeps SD_TEXT (10_state.md R38). -/
theorem presentFrame_sdText_of_not_emit {T : Tables} {seq : Byte} {a : Vector Byte 3} {s : State}
    (h : (presentFrame T seq a s).2 ≠ .emit) : (presentFrame T seq a s).1.sdText = s.sdText := by
  rcases presentFrame_cases T seq a s with ⟨_, hp⟩ | ⟨_, _, hp⟩ | ⟨n, _, _, _, _, hp⟩ | ⟨n, _, _, _, _, hp⟩ |
    ⟨n, _, _, _, _, hp⟩ | ⟨n, n', _, _, _, _, _, hp⟩ | ⟨n, _, _, _, _, _, hp⟩
  case inr.inr.inr.inr.inr.inr => exact absurd (congrArg Prod.snd hp) h
  all_goals simp [hp, armOnSync_eq, disarm_eq]

/-- Settles O47: a frame that does not emit keeps SD_TEXT, and so does every other input but a reset. -/
theorem textChangesOnlyOnEmit : Obligations.TextChangesOnlyOnEmit := by
  intro s t h htext
  rcases stepWith_assembler_cases ((step_eq_stepWith s).symm.trans h) with ⟨-, -, -, -, hsame, -⟩ | ⟨hr, -⟩ |
    ⟨-, rest, rfl⟩ | ⟨hA, rest, r, hr, rfl⟩
  · exact absurd hsame htext
  · exact .inl hr
  · exact absurd rfl htext
  · subst hr
    have hemit : (presentFrame defaultTables (operandSeq s) (operandAux s) (s.withPending rest)).2 = .emit :=
      not_not.1 fun hne => htext (presentFrame_sdText_of_not_emit hne)
    obtain ⟨hc, hseq, -⟩ := presentFrame_of_emit hemit
    exact .inr ⟨hA, sdStep_armed hc, hseq, by rw [statusSdEv_statusWord, hemit]; rfl⟩

/-- Along every run from a disarmed assembler the record and the assembler agree. -/
theorem Recorded.recordInvariant {s : State} {log : StepLog} (h : Recorded s log) : RecordInvariant s log := by
  induction h with
  | start s hs => exact (recordInvariant_iff_of_disarmed (disarmed_of_not_sdArmed hs) none).2 rfl
  | step s t log _ hstep ih => exact stepKeepsTheRecordInvariant s t log ih hstep

/-- Settles O53: at an emission the assembler is in Armed(8), where the invariant says that the record holds steps 1 to 7
and that SD_BUF holds their bytes; the frame adds step 8 and its three. -/
theorem emittedTextIsTheAcceptedBytes : Obligations.EmittedTextIsTheAcceptedBytes := by
  intro s t log hrec hstep hA hev
  obtain ⟨rest, r, hr, rfl⟩ := step_of_issues_sdFrame hstep hA
  rw [statusSdEv_statusWord, SdEvent.code_eq_three_iff, hr] at hev
  obtain ⟨hc, -, htext⟩ := presentFrame_of_emit hev
  have hctl : s.sdCtl = .armed .s8 := hc
  obtain ⟨l, rfl, hsteps, hbytes⟩ := (recordInvariant_iff_of_armed hctl log).1 hrec.recordInvariant
  refine ⟨l, rfl, ?_, ?_⟩
  · rw [List.map_append, hsteps, sdStep_armed hctl]
    rfl
  · have hfull := take_writeBytes s.sdBuf SdStep.s8.base (SdStep.s8.recovered (unscramble (operandAux s)))
      (SdStep.base_add_length_recovered_le _ _)
    rw [List.take_of_length_le (by simp [SdStep.base, SdStep.recovered])] at hfull
    rw [hr, List.flatMap_append, hbytes, sdStep_armed hctl, List.flatMap_singleton,
      ← SdStep.recovered_eq_recoveredOf, ← hfull, htext]
    exact Vector.toList_push

/-! ### What arms and what moves the assembler -/

/-- Settles O49: only SD_FRAME can arm, and in the disarmed state it does so on the sync frame alone. -/
theorem disarmedUntilSync : Obligations.DisarmedUntilSync := by
  intro s t h hs ht
  have hc := disarmed_of_not_sdArmed hs
  rcases stepWith_assembler_cases ((step_eq_stepWith s).symm.trans h) with ⟨-, -, hsame, -⟩ | ⟨-, rest, rfl⟩ |
    ⟨-, rest, rfl⟩ | ⟨hA, rest, r, hr, rfl⟩
  · simp [sdArmed_disarmed (hsame.trans hc)] at ht
  · cases ht
  · cases ht
  · refine ⟨hA, not_not.1 fun hsync => ?_⟩
    have hidle := presentFrame_of_disarmed defaultTables (s := s.withPending rest) hsync hc
    have hkeep : r.1.sdCtl = s.sdCtl := by
      rw [hr]
      exact congrArg (fun p => p.1.sdCtl) hidle
    simp [sdArmed, hkeep, hc] at ht

/-- Settles O50: SD_FRAME with another counter is ignored while SD_SKIP = 0, and no other command touches SD_STATE but
SD_RESET. -/
theorem armedLeavesOnlyBy : Obligations.ArmedLeavesOnlyBy := by
  intro s t h hs hskip hmove
  rcases stepWith_assembler_cases ((step_eq_stepWith s).symm.trans h) with ⟨-, -, hsame, -⟩ | ⟨hr, -⟩ | ⟨h9, -⟩ |
    ⟨hA, rest, r, hr, rfl⟩
  · exact absurd hsame hmove
  · exact .inl hr
  · exact .inr (.inl h9)
  · refine .inr (.inr ⟨hA, or_iff_not_imp_left.2 fun hsync => not_not.1 fun hseq => hmove ?_⟩)
    obtain ⟨n, hc, hother⟩ := exists_armed_of_other_seq hs hseq
    have hignore := presentFrame_of_seq_ignored defaultTables (s := s.withPending rest) hsync hc hother hskip
    rw [hr]
    exact congrArg (fun p => p.1.sdCtl) hignore

end Sys2Proof.Machine
end

section
/-! PROOFS. The encoding, the step and the address map (30_encoding.md, 46_control.md, 20_memory.md R61, R70). First what
the step makes of the host's next input; then where each address of the map goes, that no two mapped addresses name one
location, and what a write to one location leaves in every other. -/

namespace Sys2Proof.Machine

/-! ### The encoding (R80 to R84) -/

/-- Settles O1: both directions are lemmas about the decoder. -/
theorem decodeEncodeAgree : Obligations.DecodeEncodeAgree := ⟨decode_encode, fun _ _ h => encode_of_decode_eq_ok h⟩

/-- The opcode table's word of a command, of eight bits, is read as that command. -/
theorem decodeTableWord_toNat_encode (i : Instr) : decodeTableWord 8 (encode i).toNat = some i := by
  rw [decodeTableWord, if_pos ⟨rfl, (encode i).isLt⟩, BitVec.ofNat_toNat, BitVec.setWidth_eq, decode_encode]

/-- Settles O2: the eleven words are those the commands encode to. -/
theorem opcodeWordsDecode : Obligations.OpcodeWordsDecode :=
  ⟨decodeTableWord_toNat_encode .nop, decodeTableWord_toNat_encode .golayEnc, decodeTableWord_toNat_encode .bptcEnc,
    decodeTableWord_toNat_encode .rsParity, decodeTableWord_toNat_encode .lcEnc, decodeTableWord_toNat_encode .hdrBuild,
    decodeTableWord_toNat_encode .deintA, decodeTableWord_toNat_encode .deintB, decodeTableWord_toNat_encode .dmrDemux,
    decodeTableWord_toNat_encode .sdReset, decodeTableWord_toNat_encode .sdFrame⟩

/-! ### The host's next input (R70) -/

/-- A step performs the host's next input. -/
theorem step_of_pending_cons {s : State} {x : Input} {rest : List Input} (hp : s.pending = x :: rest) :
    step s = perform x { s with pending := rest } := by
  simp only [step_eq, hp, State.withPending]

/-- A write to CMD issues its byte as a command word (10_state.md R48). -/
theorem hostWrite_cmd (v : Byte) (s : State) : hostWrite 0xFF v s = execute v s := rfl

theorem step_of_pending_cmd_write {s : State} {w : Byte} {rest : List Input} (hp : s.pending = .write 0xFF w :: rest) :
    step s = execute w { s with pending := rest } :=
  (step_of_pending_cons hp).trans (hostWrite_cmd w _)

/-- The registers the host reads do not depend on the host's own side of the bus. -/
theorem memRead_hostSide (a : Byte) (s : State) (p : List Input) (o : List Byte) :
    memRead a { s with pending := p, observed := o } = memRead a s := by
  unfold memRead
  cases region a <;> rfl

/-- Settles O4: the step executes the word, and a legal word runs its command. -/
theorem stepRunsDecodedCommand : Obligations.StepRunsDecodedCommand := by
  intro s w i rest hp hd
  refine ⟨by cases i <;> rfl, ?_⟩
  rw [step_of_pending_cmd_write hp, execute_of_decode_ok hd, exec_eq_execWith]

/-- Settles O5: the step executes the word, an illegal word takes IllegalCommand, and 0xF0 reads STATUS. -/
theorem stepTakesIllegalCommand : Obligations.StepTakesIllegalCommand := by
  intro s w rest hp hw
  exact ⟨_, (step_of_pending_cmd_write hp).trans (execute_of_isIllegalWord hw _), rfl, rfl⟩

/-- Settles O6: a read writes the host's side of the bus alone. -/
theorem hostReadHasNoSideEffect : Obligations.HostReadHasNoSideEffect := by
  intro s a rest hp
  have hread : memRead a { s with pending := rest } = memRead a s := memRead_hostSide a s rest s.observed
  refine ⟨{ s with pending := rest, observed := s.observed ++ [memRead a s] }, ?_, rfl,
    fun b => memRead_hostSide b s _ _⟩
  rw [step_of_pending_cons hp, ← hread]
  rfl

/-- Settles O7: the step looks for an input and finds none. -/
theorem idleBlockStaysPut : Obligations.IdleBlockStaysPut := by
  intro s hp
  rw [step_eq, hp]

/-- Settles O15: the step is the reset event, and reads see the registers alone. -/
theorem resetEventRestoresResetState : Obligations.ResetEventRestoresResetState := fun _ _ hp =>
  ⟨step_of_pending_cons hp, fun a => memRead_hostSide a State.reset _ _⟩

/-- Settles O54: SD_BUF is empty at reset. -/
theorem resetSatisfiesAssemblerInvariant : Obligations.ResetSatisfiesAssemblerInvariant :=
  assemblerInvariant_of_sdBuf_zero rfl

/-! ### Every step completes (46_control.md, 60_exceptions.md R241) -/

/-- Whatever the command set, a step can fail to complete only in a command: an illegal word, an access that issues no
command and a reset all answer a next state. -/
theorem stepBy_completes {run : CommandSet} (hrun : ∀ i s, Completes (run i s)) (s : State) :
    Completes (stepBy run s) := by
  rw [stepBy_eq]
  match s.pending with
  | [] => exact ⟨_, rfl⟩
  | .read a :: rest => exact ⟨_, rfl⟩
  | .reset :: rest => exact ⟨_, rfl⟩
  | .write a v :: rest =>
    simp only [performBy, hostWriteBy]
    split
    · unfold executeBy
      split
      · exact hrun _ _
      · exact ⟨_, rfl⟩
    · exact ⟨_, rfl⟩

theorem execWith_completes (T : Tables) (i : Instr) (s : State) : Completes (execWith T i s) := by
  obtain ⟨o, f, c, b, x, tv, st, h⟩ := execWith_frame T i s
  exact ⟨_, h⟩

/-- Settles O8: every command completes, so every step does. -/
theorem everyStepCompletes : Obligations.EveryStepCompletes := by
  have hwith (T : Tables) (s : State) : Completes (stepWith T s) := stepBy_completes (execWith_completes T) s
  exact ⟨fun s => step_eq_stepWith s ▸ hwith defaultTables s, hwith⟩

/-- Settles O16: no command's frame has these fields. -/
theorem commandsKeepOperandRegisters : Obligations.CommandsKeepOperandRegisters := by
  intro w s
  obtain ⟨o, f, c, b, x, tv, st, h⟩ := execute_frame w s
  exact ⟨_, h, rfl, rfl, rfl, rfl, rfl, rfl⟩

/-! ### Where each address goes (10_state.md R31) -/

theorem region_ibuf : ∀ i : Fin 33, region (BitVec.ofNat 8 i.val) = .ibuf i := by decide +kernel

theorem region_obuf : ∀ i : Fin 33, region (BitVec.ofNat 8 (0x40 + i.val)) = .obuf i := by decide +kernel

theorem region_frameByte :
    ∀ (r : Fin 4) (b : Fin 3), region (BitVec.ofNat 8 (0x80 + 3 * r.val + b.val)) = .frameByte r b := by decide +kernel

theorem region_sdBuf : ∀ i : Fin 20, region (BitVec.ofNat 8 (0xA0 + i.val)) = .sdBuf i := by decide +kernel

theorem region_sdText : ∀ i : Fin 21, region (BitVec.ofNat 8 (0xC0 + i.val)) = .sdText i := by decide +kernel

theorem region_syncpat : ∀ i : Fin 7, region (BitVec.ofNat 8 (0xE8 + i.val)) = .syncpat i := by decide +kernel

/-- The address of a location, 0 for the unmapped ones, which have many. -/
def Region.address : Region → Nat
  | .ibuf i => i
  | .obuf i => 0x40 + i
  | .frameByte r b => 0x80 + 3 * r + b
  | .sdState => 0x90
  | .sdBuf i => 0xA0 + i
  | .sdText i => 0xC0 + i
  | .cfg => 0xE0
  | .syncpat i => 0xE8 + i
  | .status => 0xF0
  | .cmd => 0xFF
  | .unmapped => 0

/-- The decoder sends a mapped address to the location that has it. -/
theorem address_region {a : Byte} (h : region a ≠ .unmapped) : (region a).address = a.toNat := by
  unfold region at h ⊢
  revert h
  fun_cases regionAt a.toNat <;> simp [Region.address] <;> omega

/-- No two mapped addresses name one location. -/
theorem eq_of_region_eq {a b : Byte} (h : region a = region b) (ha : region a ≠ .unmapped) : a = b :=
  BitVec.eq_of_toNat_eq (by rw [← address_region ha, ← address_region (h ▸ ha), h])

/-! ### Reads and writes (R61) -/

/-- Settles O9: each address is read at its location. -/
theorem memReadFollowsTheMap : Obligations.MemReadFollowsTheMap := by
  intro s
  refine ⟨fun i => ?_, fun i => ?_, fun r b k => ?_, rfl, fun i => ?_, fun i => ?_, rfl, fun i => ?_, rfl, rfl,
    fun a ha => memRead_of_isUnmapped ha s⟩
  · rw [memRead, region_ibuf, readRegion]
  · rw [memRead, region_obuf, readRegion]
  · rw [memRead, region_frameByte, readRegion, BitVec.getLsbD_extractLsb', decide_eq_true k.isLt, Bool.true_and]
  · rw [memRead, region_sdBuf, readRegion]
  · rw [memRead, region_sdText, readRegion]
  · rw [memRead, region_syncpat, readRegion]

theorem hostWrite_ibuf (i : Fin 33) (v : Byte) (s : State) :
    hostWrite (BitVec.ofNat 8 i.val) v s = .next { s with ibuf := s.ibuf.set i.val v } := by
  rw [hostWrite_of_region_ne_cmd (by simp [region_ibuf]), region_ibuf, writeRegion, State.withIbuf]

theorem hostWrite_syncpat (i : Fin 7) (v : Byte) (s : State) :
    hostWrite (BitVec.ofNat 8 (0xE8 + i.val)) v s = .next { s with syncpat := s.syncpat.set i.val v } := by
  rw [hostWrite_of_region_ne_cmd (by simp [region_syncpat]), region_syncpat, writeRegion, State.withSyncpat]

/-- Settles O10: each writable address is written at its location. -/
theorem hostWriteFollowsTheMap : Obligations.HostWriteFollowsTheMap := fun s v =>
  ⟨fun i => hostWrite_ibuf i v s, fun i => hostWrite_syncpat i v s, hostWrite_cfg v s, hostWrite_cmd v s⟩

/-- The locations that store the whole byte of a host write (10_state.md R32, R43). -/
def Region.storesByte : Region → Bool
  | .ibuf _ | .syncpat _ => true
  | .obuf _ | .frameByte _ _ | .sdState | .sdBuf _ | .sdText _ | .cfg | .status | .cmd | .unmapped => false

theorem region_storesByte_iff (a : Byte) :
    (region a).storesByte = true ↔ a.toNat ≤ 0x20 ∨ (0xE8 ≤ a.toNat ∧ a.toNat ≤ 0xEE) := by
  unfold region
  fun_cases regionAt a.toNat <;> simp only [Region.storesByte, Bool.false_eq_true, true_iff, false_iff] <;> omega

/-- What every location reads after a write to one that stores the byte. -/
theorem readRegion_writeRegion {r : Region} (h : r.storesByte = true) (q : Region) (v : Byte) (s : State) :
    readRegion q (writeRegion r v s) = if q = r then v else readRegion q s := by
  cases r with
  | ibuf i =>
    cases q with
    | ibuf j => simp [writeRegion, readRegion, Vector.getElem_set, Fin.ext_iff, eq_comm]
    | _ => rfl
  | syncpat i =>
    cases q with
    | syncpat j => simp [writeRegion, readRegion, Vector.getElem_set, Fin.ext_iff, eq_comm]
    | _ => rfl
  | obuf | frameByte | sdState | sdBuf | sdText | cfg | status | cmd | unmapped => contradiction

/-- Settles O12: the write reaches one location, and the only address that names it is the one written. -/
theorem readAfterWriteGivesTheByte : Obligations.ReadAfterWriteGivesTheByte := by
  intro a b v s ha
  have hstores := (region_storesByte_iff a).2 ha
  have hcmd : region a ≠ .cmd := fun hc => by simp [hc, Region.storesByte] at hstores
  have hmapped : region a ≠ .unmapped := fun hu => by simp [hu, Region.storesByte] at hstores
  have hsame : region b = region a ↔ b = a :=
    ⟨fun hba => (eq_of_region_eq hba.symm hmapped).symm, fun hba => congrArg region hba⟩
  refine ⟨_, hostWrite_of_region_ne_cmd hcmd v s, ?_⟩
  rw [memRead, readRegion_writeRegion hstores]
  simp only [hsame, memRead]

end Sys2Proof.Machine
end

section
/-! PROOFS. What each command reads and what it writes, said once for all eleven (30_encoding.md R82), and the obligations
that are this lemma at one field or another: a command changes its Writes column, does not depend on what it does not read,
and forgets earlier results. Last the tables each command reads. -/

namespace Sys2Proof.Machine

/-! ### Operands (R81) -/

/-- The deinterleaves, which write FRAME (30_encoding.md R82). -/
def deinterleaves : Instr → Bool
  | .deintA | .deintB => true
  | .nop | .golayEnc | .bptcEnc | .rsParity | .lcEnc | .hdrBuild | .dmrDemux | .sdReset | .sdFrame => false

/-- The commands of the slow-data assembler (30_encoding.md R82). -/
def usesAssembler : Instr → Bool
  | .sdReset | .sdFrame => true
  | .nop | .golayEnc | .bptcEnc | .rsParity | .lcEnc | .hdrBuild | .deintA | .deintB | .dmrDemux => false

theorem usesAssembler_iff (i : Instr) : usesAssembler i = true ↔ i = .sdReset ∨ i = .sdFrame := by cases i <;> decide

theorem deinterleaves_iff (i : Instr) : deinterleaves i = true ↔ i = .deintA ∨ i = .deintB := by cases i <;> decide

/-- `u` holds what the command `i` reads in `s`: the IBUF bytes of its Reads column, CFG and SYNCPAT, and for an assembler
command the assembler's step and buffer (30_encoding.md R82). -/
structure SameOperands (i : Instr) (s u : State) : Prop where
  ibuf : ∀ k : Fin 33, k.val < readsBelow i → u.ibuf[k.val] = s.ibuf[k.val]
  syncpat : u.syncpat = s.syncpat
  demuxNib : u.demuxNib = s.demuxNib
  sdSkip : u.sdSkip = s.sdSkip
  assembler : usesAssembler i = true → u.sdCtl = s.sdCtl ∧ u.sdBuf = s.sdBuf

theorem SameOperands.refl (i : Instr) (s : State) : SameOperands i s s :=
  ⟨fun _ _ => rfl, rfl, rfl, rfl, fun _ => ⟨rfl, rfl⟩⟩

/-- Results are no operands: OBUF, FRAME, SD_TEXT and STATUS may differ. -/
theorem SameOperands.of_results (i : Instr) (s : State) (o : Vector Byte 33) (f : Vector Row 4) (x : Vector Byte 21)
    (st : Byte) : SameOperands i s { s with obuf := o, frame := f, sdText := x, status := st } :=
  ⟨fun _ _ => rfl, rfl, rfl, rfl, fun _ => ⟨rfl, rfl⟩⟩

section
variable {i : Instr} {s u : State} (h : SameOperands i s u)
include h

theorem SameOperands.getElem_ibuf {k : Nat} (hk : k < 33) (hr : k < readsBelow i) : u.ibuf[k] = s.ibuf[k] :=
  h.ibuf ⟨k, hk⟩ hr

theorem SameOperands.operandBytes_eq {n : Nat} (hn : n ≤ 33) (hr : n ≤ readsBelow i) :
    operandBytes u n hn = operandBytes s n hn := by
  refine Vector.ext fun k hk => ?_
  rw [getElem_operandBytes, getElem_operandBytes, h.getElem_ibuf (by omega) (by omega)]

theorem SameOperands.operandDst_eq (hr : 3 ≤ readsBelow i) : operandDst u = operandDst s := by
  rw [operandDst, h.getElem_ibuf (by omega) (by omega : 0 < _), h.getElem_ibuf (by omega) (by omega : 1 < _),
    h.getElem_ibuf (by omega) (by omega : 2 < _), operandDst]

theorem SameOperands.operandSrc_eq (hr : 6 ≤ readsBelow i) : operandSrc u = operandSrc s := by
  rw [operandSrc, h.getElem_ibuf (by omega) (by omega : 3 < _), h.getElem_ibuf (by omega) (by omega : 4 < _),
    h.getElem_ibuf (by omega) (by omega : 5 < _), operandSrc]

theorem SameOperands.operandAux_eq (hr : 4 ≤ readsBelow i) : operandAux u = operandAux s := by
  rw [operandAux, h.getElem_ibuf (by omega) (by omega : 1 < _), h.getElem_ibuf (by omega) (by omega : 2 < _),
    h.getElem_ibuf (by omega) (by omega : 3 < _), operandAux]

end

/-! ### What each command reads and writes (R82) -/

/-- What a frame does to the assembler depends on the frame, SD_SKIP, and the assembler's step and buffer alone; SD_TEXT and
SD_TVALID are written by an emission and kept otherwise (45_slowdata.md R212). -/
theorem presentFrame_reads_writes (T : Tables) (seq : Byte) (a : Vector Byte 3) (s : State) :
    ∃ c b x ev, ev ≠ .none ∧ ∀ u : State, u.sdCtl = s.sdCtl → u.sdBuf = s.sdBuf → u.sdSkip = s.sdSkip →
      presentFrame T seq a u =
        ({ u with
            sdCtl := c
            sdBuf := b
            sdText := if ev = .emit then x else u.sdText
            sdTvalid := if ev = .emit then true else u.sdTvalid }, ev) := by
  rcases presentFrame_cases T seq a s with ⟨hs, _⟩ | ⟨hs, hc, _⟩ | ⟨n, hs, hc, hq, hk, _⟩ | ⟨n, hs, hc, hq, hk, _⟩ |
    ⟨n, hs, hc, rfl, hm, _⟩ | ⟨n, n', hs, hc, rfl, hm, hn, _⟩ | ⟨n, hs, hc, rfl, hm, hn, _⟩
  · refine ⟨.armed .s1, zeroBytes 20, s.sdText, .sync, by simp, fun u _ _ _ => ?_⟩
    simp [presentFrame, hs, armOnSync_eq]
  · refine ⟨s.sdCtl, s.sdBuf, s.sdText, .idle, by simp, fun u hcu hbu _ => ?_⟩
    have hkeep : presentFrame T seq a u = (u, .idle) := by simp [presentFrame, hs, hcu, hc]
    simp [hkeep, ← hcu, ← hbu]
  · refine ⟨s.sdCtl, s.sdBuf, s.sdText, .seqIgnore, by simp, fun u hcu hbu hku => ?_⟩
    have hkeep : presentFrame T seq a u = (u, .seqIgnore) := by simp [presentFrame, hs, hcu, hc, hq, hku, hk]
    simp [hkeep, ← hcu, ← hbu]
  · refine ⟨.disarmed, zeroBytes 20, s.sdText, .seqDisarm, by simp, fun u hcu _ hku => ?_⟩
    simp [presentFrame, hs, hcu, hc, hq, hku, hk, disarm_eq]
  · refine ⟨.disarmed, zeroBytes 20, s.sdText, .markerFail, by simp, fun u hcu _ _ => ?_⟩
    simp [presentFrame, hs, hcu, hc, hm, disarm_eq]
  · refine ⟨.armed n', writeBytes s.sdBuf n.base (n.recovered (unscramble a)), s.sdText, .step, by simp,
      fun u hcu hbu _ => ?_⟩
    simp [presentFrame, acceptStep, hs, hcu, hc, hm, hn, hbu, State.withSdBuf, State.withSdCtl]
  · refine ⟨.disarmed, zeroBytes 20, (writeBytes s.sdBuf n.base (n.recovered (unscramble a))).push 0x00, .emit, by simp,
      fun u hcu hbu _ => ?_⟩
    simp [presentFrame, acceptStep, hs, hcu, hc, hm, hn, hbu, disarm_eq, emitText_eq]

/-- The nine commands outside the assembler: what they write is a function of their operands. -/
theorem execWith_other_reads_writes (T : Tables) {i : Instr} (s : State) (hi : usesAssembler i = false) :
    ∃ o f, ∀ u, SameOperands i s u →
      execWith T i u =
        .next { u with
          obuf := if producesBytes i then o else u.obuf
          frame := if deinterleaves i then f else u.frame
          status := encode i } := by
  cases i with
  | nop => exact ⟨s.obuf, s.frame, fun u h => rfl⟩
  | golayEnc =>
    refine ⟨resultBytes (golayBytes T s.ibuf[0]).toList, s.frame, fun u h => ?_⟩
    rw [execWith_golayEnc, h.getElem_ibuf (by decide) (by decide)]
    rfl
  | bptcEnc =>
    refine ⟨resultBytes (bptc T (operandBytes s 12 (by decide))).toList, s.frame, fun u h => ?_⟩
    rw [execWith_bptcEnc, h.operandBytes_eq _ (by decide)]
    rfl
  | rsParity =>
    let p := rsParity T (operandBytes s 9 (by decide))
    refine ⟨resultBytes [p.r0, p.r1, p.r2], s.frame, fun u h => ?_⟩
    rw [execWith_rsParity, h.operandBytes_eq _ (by decide)]
    rfl
  | lcEnc =>
    refine ⟨resultBytes (linkControl T (operandDst s) (operandSrc s)).toList, s.frame, fun u h => ?_⟩
    rw [execWith_lcEnc, h.operandDst_eq (by decide), h.operandSrc_eq (by decide)]
    rfl
  | hdrBuild =>
    refine ⟨resultBytes (headerCarrier T (operandDst s) (operandSrc s) (operandSlotType s) s.syncpat).toList, s.frame,
      fun u h => ?_⟩
    rw [execWith_hdrBuild, h.operandDst_eq (by decide), h.operandSrc_eq (by decide), h.syncpat, operandSlotType,
      h.getElem_ibuf (by decide) (by decide)]
    rfl
  | deintA =>
    refine ⟨s.obuf, deinterleaveA T (operandBytes s 9 (by decide)), fun u h => ?_⟩
    rw [execWith_deintA, h.operandBytes_eq _ (by decide)]
    rfl
  | deintB =>
    refine ⟨s.obuf, deinterleaveB T (operandBytes s 9 (by decide)), fun u h => ?_⟩
    rw [execWith_deintB, h.operandBytes_eq _ (by decide)]
    rfl
  | dmrDemux =>
    refine ⟨resultBytes (demuxBytes s.demuxNib s.ibuf).toList, s.frame, fun u h => ?_⟩
    have hibuf : u.ibuf = s.ibuf := Vector.ext fun k hk => h.getElem_ibuf hk hk
    rw [show execWith T .dmrDemux u = _ from exec_dmrDemux u, hibuf, h.demuxNib]
    rfl
  | sdReset | sdFrame => contradiction

/-- Every command is a function of its operands: wherever these are the same it writes the same values to its Writes column,
and it keeps everything else (30_encoding.md R82). -/
theorem execWith_reads_writes (T : Tables) (i : Instr) (s : State) :
    ∃ o f c b x ev, (ev = .none ↔ i ≠ .sdFrame) ∧ ∀ u, SameOperands i s u →
      execWith T i u =
        .next { u with
          obuf := if producesBytes i then o else u.obuf
          frame := if deinterleaves i then f else u.frame
          sdCtl := if usesAssembler i then c else u.sdCtl
          sdBuf := if usesAssembler i then b else u.sdBuf
          sdText := if ev = .emit then x else u.sdText
          sdTvalid := if ev = .emit then true else if i = .sdReset then false else u.sdTvalid
          status := statusWord ev false (opField (encode i)) } := by
  by_cases hReset : i = .sdReset
  · subst hReset
    exact ⟨s.obuf, s.frame, .disarmed, zeroBytes 20, s.sdText, .none, by simp, fun u _ => execWith_sdReset T u⟩
  · by_cases hFrame : i = .sdFrame
    · subst hFrame
      obtain ⟨c, b, x, ev, hev, hframe⟩ := presentFrame_reads_writes T (operandSeq s) (operandAux s) s
      refine ⟨s.obuf, s.frame, c, b, x, ev, by simp [hev], fun u h => ?_⟩
      obtain ⟨hc, hb⟩ := h.assembler rfl
      have hseq : operandSeq u = operandSeq s := h.getElem_ibuf (by decide) (by decide)
      rw [execWith_sdFrame, h.operandAux_eq (by decide), hseq, hframe u hc hb h.sdSkip]
      rfl
    · have hi : usesAssembler i = false := by
        rw [← Bool.not_eq_true, usesAssembler_iff]
        exact not_or.2 ⟨hReset, hFrame⟩
      obtain ⟨o, f, hother⟩ := execWith_other_reads_writes T s hi
      refine ⟨o, f, s.sdCtl, s.sdBuf, s.sdText, .none, by simp [hFrame], fun u h => ?_⟩
      rw [hother u h, statusWord_none_encode]
      simp [hi, hReset]

/-! ### The Writes column (R82) -/

/-- The register that a location shows is another in `t` than in `s` (10_state.md R31). -/
def Region.changed (s t : State) : Region → Prop
  | .ibuf _ => t.ibuf ≠ s.ibuf
  | .obuf _ => t.obuf ≠ s.obuf
  | .frameByte _ _ => t.frame ≠ s.frame
  | .sdState => t.sdCtl ≠ s.sdCtl ∨ t.sdTvalid ≠ s.sdTvalid
  | .sdBuf _ => t.sdBuf ≠ s.sdBuf
  | .sdText _ => t.sdText ≠ s.sdText
  | .cfg => t.demuxNib ≠ s.demuxNib ∨ t.sdSkip ≠ s.sdSkip
  | .syncpat _ => t.syncpat ≠ s.syncpat
  | .status => t.status ≠ s.status
  | .cmd | .unmapped => False

/-- A location reads another byte only when its register changed. -/
theorem Region.changed_of_readRegion_ne {r : Region} {s t : State} (h : readRegion r t ≠ readRegion r s) :
    r.changed s t := by
  by_contra hsame
  refine h ?_
  cases r with
  | sdState | cfg =>
    simp only [Region.changed, not_or, not_not] at hsame
    obtain ⟨h1, h2⟩ := hsame
    simp only [readRegion, sdStateView, cfgView, sdStep, sdArmed, h1, h2]
  | cmd | unmapped => rfl
  | _ => simp only [readRegion, not_not.1 hsame]

/-- A command changes a register only when its Writes column has it (30_encoding.md R82). -/
theorem mayWrite_of_memRead_ne {T : Tables} {i : Instr} {s t : State} (h : execWith T i s = .next t) {a : Byte}
    (hne : memRead a t ≠ memRead a s) : mayWrite i a.toNat := by
  obtain ⟨o, f, c, b, x, ev, hev, hi⟩ := execWith_reads_writes T i s
  cases Host.Outcome.next.inj (h.symm.trans (hi s (.refl i s)))
  have hemit : ev = .emit → i = .sdFrame := fun he => not_not.1 (mt hev.2 (by simp [he]))
  have hch := Region.changed_of_readRegion_ne hne
  have haddr := address_region (a := a)
  unfold mayWrite
  cases hr : region a <;> rw [hr] at hch haddr
  case ibuf | syncpat => exact absurd rfl hch
  case cfg => exact absurd (not_or.2 ⟨not_not.2 rfl, not_not.2 rfl⟩) (not_not.2 hch)
  case cmd | unmapped => exact hch.elim
  case status => exact .inl (haddr (by simp)).symm
  case obuf j =>
    have ha : 0x40 + j.val = a.toNat := haddr (by simp)
    exact .inr (.inl ⟨(ite_ne_right_iff.1 hch).1, by omega⟩)
  case frameByte r j =>
    have ha : 0x80 + 3 * r.val + j.val = a.toNat := haddr (by simp)
    exact .inr (.inr (.inl ⟨(deinterleaves_iff i).1 (ite_ne_right_iff.1 hch).1, by omega⟩))
  case sdState =>
    refine .inr (.inr (.inr (.inl ⟨?_, .inl (haddr (by simp)).symm⟩)))
    rcases hch with hctl | htvalid
    · exact (usesAssembler_iff i).1 (ite_ne_right_iff.1 hctl).1
    · by_contra hother
      obtain ⟨hReset, hFrame⟩ := not_or.1 hother
      exact htvalid (by simp only [if_neg (mt hemit hFrame), if_neg hReset])
  case sdBuf j =>
    have ha : 0xA0 + j.val = a.toNat := haddr (by simp)
    exact .inr (.inr (.inr (.inl ⟨(usesAssembler_iff i).1 (ite_ne_right_iff.1 hch).1, .inr (by omega)⟩)))
  case sdText j =>
    have ha : 0xC0 + j.val = a.toNat := haddr (by simp)
    exact .inr (.inr (.inr (.inr ⟨hemit (ite_ne_right_iff.1 hch).1, by omega⟩)))

/-- IllegalCommand changes STATUS alone (60_exceptions.md R240). -/
theorem eq_status_of_memRead_ne {s : State} {st a : Byte} (hne : memRead a { s with status := st } ≠ memRead a s) :
    a = 0xF0 := by
  have hch := Region.changed_of_readRegion_ne hne
  have haddr := address_region (a := a)
  cases hr : region a <;> rw [hr] at hch haddr
  case status => exact BitVec.eq_of_toNat_eq (haddr (by simp)).symm
  all_goals simp [Region.changed] at hch

/-- Settles O17: a read changes only with its register, and that only when the word's column has it. -/
theorem commandsWriteOnlyTheirColumn : Obligations.CommandsWriteOnlyTheirColumn := by
  intro w s
  match hd : decode w with
  | .error e => exact ⟨_, execute_of_decode_error hd s, fun a hne => eq_status_of_memRead_ne hne⟩
  | .ok i =>
    obtain ⟨t, ht⟩ := execWith_completes defaultTables i s
    exact ⟨t, (execute_of_decode_ok hd s).trans ht, fun a hne => mayWrite_of_memRead_ne ht hne⟩

/-! ### Earlier results, unread operands and the assembler -/

/-- `execWith_reads_writes` at the default tables. -/
theorem exec_reads_writes (i : Instr) (s : State) :
    ∃ o f c b x ev, (ev = .none ↔ i ≠ .sdFrame) ∧ ∀ u, SameOperands i s u →
      exec i u =
        .next { u with
          obuf := if producesBytes i then o else u.obuf
          frame := if deinterleaves i then f else u.frame
          sdCtl := if usesAssembler i then c else u.sdCtl
          sdBuf := if usesAssembler i then b else u.sdBuf
          sdText := if ev = .emit then x else u.sdText
          sdTvalid := if ev = .emit then true else if i = .sdReset then false else u.sdTvalid
          status := statusWord ev false (opField (encode i)) } := by
  simp only [exec_eq_execWith]
  exact execWith_reads_writes defaultTables i s

section
variable (i : Instr) (s : State)

theorem exec_obuf_of_producesBytes (v : Vector Byte 33) (hi : producesBytes i = true) :
    exec i { s with obuf := v } = exec i s := by
  obtain ⟨o, f, c, b, x, ev, -, h⟩ := exec_reads_writes i s
  rw [h s (.refl i s), h _ (.of_results i s v _ _ _)]
  simp only [if_pos hi]

theorem exec_obuf_of_not_producesBytes (v : Vector Byte 33) (hi : producesBytes i = false) :
    ∃ t, exec i s = .next t ∧ exec i { s with obuf := v } = .next { t with obuf := v } := by
  obtain ⟨o, f, c, b, x, ev, -, h⟩ := exec_reads_writes i s
  refine ⟨_, h s (.refl i s), (h _ (.of_results i s v _ _ _)).trans ?_⟩
  simp only [hi, Bool.false_eq_true, if_false]

theorem exec_frame_of_deinterleaves (v : Vector Row 4) (hi : deinterleaves i = true) :
    exec i { s with frame := v } = exec i s := by
  obtain ⟨o, f, c, b, x, ev, -, h⟩ := exec_reads_writes i s
  rw [h s (.refl i s), h _ (.of_results i s _ v _ _)]
  simp only [if_pos hi]

theorem exec_frame_of_not_deinterleaves (v : Vector Row 4) (hi : deinterleaves i = false) :
    ∃ t, exec i s = .next t ∧ exec i { s with frame := v } = .next { t with frame := v } := by
  obtain ⟨o, f, c, b, x, ev, -, h⟩ := exec_reads_writes i s
  refine ⟨_, h s (.refl i s), (h _ (.of_results i s _ v _ _)).trans ?_⟩
  simp only [hi, Bool.false_eq_true, if_false]

theorem exec_sdText (v : Vector Byte 21) :
    ∃ t, exec i s = .next t ∧
      exec i { s with sdText := v } = .next { t with sdText := if statusSdEv t.status = 3 then t.sdText else v } := by
  obtain ⟨o, f, c, b, x, ev, -, h⟩ := exec_reads_writes i s
  refine ⟨_, h s (.refl i s), (h _ (.of_results i s _ _ v _)).trans ?_⟩
  simp only [statusSdEv_statusWord, SdEvent.code_eq_three_iff]
  by_cases hemit : ev = .emit <;> simp [hemit]

theorem exec_status (v : Byte) : exec i { s with status := v } = exec i s := by
  obtain ⟨o, f, c, b, x, ev, -, h⟩ := exec_reads_writes i s
  rw [h s (.refl i s), h _ (.of_results i s _ _ _ v)]

end

/-- Settles O19: OBUF, FRAME, SD_TEXT and STATUS are in no command's operands, so a command writes there what it wrote
before or leaves what it finds. -/
theorem resultsForgetEarlierResults : Obligations.ResultsForgetEarlierResults := by
  refine ⟨fun i s v => exec_obuf_of_producesBytes i s v, fun i s v => exec_obuf_of_not_producesBytes i s v,
    fun s f => ⟨exec_frame_of_deinterleaves .deintA s f rfl, exec_frame_of_deinterleaves .deintB s f rfl⟩,
    fun i s f hA hB => exec_frame_of_not_deinterleaves i s f ?_, fun w s x => ?text, fun w s b => ?status⟩
  · rw [← Bool.not_eq_true, deinterleaves_iff]
    exact not_or.2 ⟨hA, hB⟩
  case text =>
    match hd : decode w with
    | .ok i => simpa only [execute_of_decode_ok hd, ← exec_eq_execWith] using exec_sdText i s x
    | .error e =>
      have hev : statusSdEv (statusWord .none true (opField w)) ≠ 3 := by
        rw [statusSdEv_statusWord]
        decide
      exact ⟨_, execute_of_decode_error hd s, by rw [execute_of_decode_error hd, if_neg hev]⟩
  case status =>
    match hd : decode w with
    | .ok i => simpa only [execute_of_decode_ok hd, ← exec_eq_execWith] using exec_status i s b
    | .error e => rw [execute_of_decode_error hd, execute_of_decode_error hd]

/-- Settles O20: bytes outside the Reads column leave the operands as they are, and no command writes IBUF. -/
theorem unreadOperandBytesHaveNoEffect : Obligations.UnreadOperandBytesHaveNoEffect := by
  intro i s v hv
  obtain ⟨o, f, c, b, x, ev, -, h⟩ := exec_reads_writes i s
  exact ⟨_, h s (.refl i s), h { s with ibuf := v } ⟨hv, rfl, rfl, rfl, fun _ => ⟨rfl, rfl⟩⟩⟩

/-- Settles O21: for these nine commands the assembler's registers are neither operands nor in the Writes column. -/
theorem otherCommandsIgnoreTheAssembler : Obligations.OtherCommandsIgnoreTheAssembler := by
  intro i s c b x tv hReset hFrame
  have hi : usesAssembler i = false := by
    rw [← Bool.not_eq_true, usesAssembler_iff]
    exact not_or.2 ⟨hReset, hFrame⟩
  have hops : SameOperands i s { s with sdCtl := c, sdBuf := b, sdText := x, sdTvalid := tv } :=
    ⟨fun _ _ => rfl, rfl, rfl, rfl, fun hu => by simp [hi] at hu⟩
  simp only [exec_eq_execWith]
  obtain ⟨o, f, h⟩ := execWith_other_reads_writes defaultTables s hi
  exact ⟨_, h s (.refl i s), rfl, rfl, rfl, rfl, h _ hops⟩

/-! ### The tables each command reads (00_scope.md R7) -/

section
variable {T U : Tables}

theorem golayBytes_congr (hP : T.golayP = U.golayP) : golayBytes T = golayBytes U := by
  funext d
  simp only [golayBytes, golayParity, hP]

theorem bptc_congr (hslots : T.bptcSlots = U.bptcSlots) (hrow : T.hamRow = U.hamRow) (hcol : T.hamCol = U.hamCol)
    (hilv : T.bptcIlv = U.bptcIlv) (hmod : T.bptcIlvMod = U.bptcIlvMod) : bptc T = bptc U := by
  have hrows : encodeRows T = encodeRows U := by
    funext m
    simp only [encodeRows, rowParity, hrow]
  have hcols : encodeCols T = encodeCols U := by
    funext m
    simp only [encodeCols, colParity, hcol]
  funext block
  simp only [bptc, interleave, bptcMatrix, bptcPlace, hrows, hcols, hslots, hilv, hmod]

theorem rsParity_congr (hprim : T.gfPrim = U.gfPrim) (hgen : T.rsGen = U.rsGen) : rsParity T = rsParity U := by
  have hshift : rsShift T = rsShift U := by
    funext p m
    simp only [rsShift, hprim, hgen]
  funext m
  simp only [rsParity, hshift]

/-- The link-control block: the information bytes, and their parity under the mask (42_rs129.md R146). -/
theorem linkControl_eq (T : Tables) (dst src : Ident) :
    linkControl T dst src =
      lcInfo dst src ++ #v[(rsParity T (lcInfo dst src)).r0 ^^^ lcMask, (rsParity T (lcInfo dst src)).r1 ^^^ lcMask,
        (rsParity T (lcInfo dst src)).r2 ^^^ lcMask] := rfl

theorem linkControl_congr (hprim : T.gfPrim = U.gfPrim) (hgen : T.rsGen = U.rsGen) :
    linkControl T = linkControl U := by
  funext dst src
  rw [linkControl_eq, linkControl_eq, rsParity_congr hprim hgen]

theorem markerMatches_congr (hmarker : T.sdMarker = U.sdMarker) : markerMatches T = markerMatches U := by
  have hstep (n : SdStep) : n.marker T = n.marker U := by
    cases n <;> simp only [SdStep.marker, hmarker]
  funext n u
  unfold markerMatches
  rw [hstep]

theorem presentFrame_congr (hmarker : T.sdMarker = U.sdMarker) : presentFrame T = presentFrame U := by
  unfold presentFrame
  rw [markerMatches_congr hmarker]

end

/-- Settles O58: each command goes through stages that read the listed tables alone. -/
theorem commandsReadOnlyTheirTables : Obligations.CommandsReadOnlyTheirTables := by
  intro T U s
  refine ⟨fun hP => ?_, fun hslots hrow hcol hilv hmod => ?_, fun hprim hgen => ⟨?_, ?_⟩,
    fun hP hslots hrow hcol hilv hmod hprim hgen => ?_, fun hW hX => ?_, fun hW hX hY hZ => ?_, fun hmarker => ?_,
    rfl, rfl, rfl⟩
  · rw [execWith_golayEnc, execWith_golayEnc, golayBytes_congr hP]
  · rw [execWith_bptcEnc, execWith_bptcEnc, bptc_congr hslots hrow hcol hilv hmod]
  · rw [execWith_rsParity, execWith_rsParity, rsParity_congr hprim hgen]
  · rw [execWith_lcEnc, execWith_lcEnc, linkControl_congr hprim hgen]
  · simp only [execWith_hdrBuild, headerCarrier, golayBytes_congr hP, bptc_congr hslots hrow hcol hilv hmod,
      linkControl_congr hprim hgen]
  · simp only [execWith_deintA, deinterleaveA, writesA, hW, hX]
  · simp only [execWith_deintB, deinterleaveB, writesB, hW, hX, hY, hZ]
  · rw [execWith_sdFrame, execWith_sdFrame, presentFrame_congr hmarker]

end Sys2Proof.Machine
end

section
/-! PROOFS. Host programs (30_encoding.md §5) and whole messages of the slow-data assembler (45_slowdata.md §3). First what a
run of byte writes and a run of copies leave in IBUF; then what one presented voice frame does; then a message, frame by
frame: while every marker matches SD_BUF collects the text, and from a wrong marker on the assembler stays disarmed. -/

namespace Sys2Proof.Machine

/-! ### Runs of byte writes (R87) -/

theorem writeBytes_nil {n : Nat} (buf : Vector Byte n) (base : Nat) : writeBytes buf base [] = buf := by
  refine Vector.ext fun i hi => ?_
  rw [getElem_writeBytes, if_neg (by simp)]

/-- Writing one byte more is one byte set behind the others. -/
theorem writeBytes_concat {n : Nat} (buf : Vector Byte n) (base : Nat) (bytes : List Byte) (b : Byte)
    (h : base + bytes.length < n) :
    writeBytes buf base (bytes ++ [b]) = (writeBytes buf base bytes).set (base + bytes.length) b := by
  refine Vector.ext fun i hi => ?_
  rw [Vector.getElem_set, getElem_writeBytes, getElem_writeBytes, List.length_append, List.length_singleton]
  by_cases hlast : base + bytes.length = i
  · have hidx : i - base = bytes.length := by omega
    rw [if_pos hlast, if_pos (by omega), hidx]
    simp
  · rw [if_neg hlast]
    by_cases hin : base ≤ i ∧ i < base + bytes.length
    · have hidx : i - base < bytes.length := by omega
      rw [if_pos hin, if_pos (by omega)]
      simp [hidx, Nat.lt_succ_of_lt hidx]
    · rw [if_neg hin, if_neg (by omega)]

theorem writesFrom_concat (off : Nat) (bytes : List Byte) (b : Byte) :
    writesFrom off (bytes ++ [b]) =
      writesFrom off bytes ++ [.access (.write (BitVec.ofNat 8 (off + bytes.length)) b)] := by
  simp [writesFrom, List.zipIdx_append]

/-- One act after a run that goes on. -/
theorem runActs_concat {l : List HostAct} {act : HostAct} {s t : State} (h : runActs l s = .next t) :
    runActs (l ++ [act]) s = runAct act t := by
  rw [runActs_append h]
  cases hact : runAct act t <;> simp [runActs, hact]

/-- Byte writes inside IBUF load it (30_encoding.md R87). -/
theorem runActs_writesFrom_ibuf (s : State) (off : Nat) (bytes : List Byte) (h : off + bytes.length ≤ 33) :
    runActs (writesFrom off bytes) s = .next { s with ibuf := writeBytes s.ibuf off bytes } := by
  induction bytes using List.reverseRecOn with
  | nil => rw [writeBytes_nil]; rfl
  | append_singleton bytes b ih =>
    rw [List.length_append, List.length_singleton] at h
    rw [writesFrom_concat, runActs_concat (ih (by omega)), writeBytes_concat _ _ _ _ (by omega)]
    exact hostWrite_ibuf ⟨off + bytes.length, by omega⟩ b _

/-- Settles O56: `ldi` is a run of byte writes inside IBUF. -/
theorem ldiLoadsIbuf : Obligations.LdiLoadsIbuf := by
  intro off bytes s hwf
  simp only [HostLine.wf, Bool.and_eq_true, decide_eq_true_eq] at hwf
  obtain ⟨-, hfit⟩ := hwf
  exact ⟨_, runActs_writesFrom_ibuf s off bytes hfit, rfl, fun k => getElem_writeBytes _ _ _ k.val k.isLt⟩

/-! ### Copies (R87) -/

/-- The `n` bytes of OBUF from index `i` on, 0x00 past its end. -/
def obufBytes (s : State) (i n : Nat) : List Byte := (List.range n).map fun k => s.obuf.getD (i + k) 0

@[simp] theorem length_obufBytes (s : State) (i n : Nat) : (obufBytes s i n).length = n := by simp [obufBytes]

theorem obufBytes_succ (s : State) (i n : Nat) : obufBytes s i (n + 1) = obufBytes s i n ++ [s.obuf.getD (i + n) 0] := by
  simp [obufBytes, List.range_succ]

/-- One copy inside the two buffers: the byte is read, and then written. -/
theorem runAct_copy (s : State) {i j : Nat} (hi : i < 33) (hj : j < 33) :
    runAct (.copy (BitVec.ofNat 8 (0x40 + i)) (BitVec.ofNat 8 j)) s =
      .next { s with ibuf := s.ibuf.set j (s.obuf.getD i 0), observed := s.observed ++ [s.obuf.getD i 0] } := by
  have hread : memRead (BitVec.ofNat 8 (0x40 + i)) s = s.obuf.getD i 0 := by
    rw [memRead, region_obuf ⟨i, hi⟩, readRegion]
    simp [Vector.getD, hi]
  rw [runAct, hostRead, hread]
  exact hostWrite_ibuf ⟨j, hj⟩ _ _

/-- A run of copies inside the two buffers (30_encoding.md R87). -/
theorem runActs_copies (s : State) (i j n : Nat) (hi : i + n ≤ 33) (hj : j + n ≤ 33) :
    runActs (expand (.movob i j n)) s =
      .next { s with
        ibuf := writeBytes s.ibuf j (obufBytes s i n)
        observed := s.observed ++ obufBytes s i n } := by
  induction n with
  | zero => simp [expand, obufBytes, writeBytes_nil]
  | succ n ih =>
    have hexpand : expand (.movob i j (n + 1)) =
        expand (.movob i j n) ++ [.copy (BitVec.ofNat 8 (0x40 + (i + n))) (BitVec.ofNat 8 (j + n))] := by
      simp [expand, List.range_succ, Nat.add_assoc]
    rw [hexpand, runActs_concat (ih (by omega) (by omega)), runAct_copy _ (by omega) (by omega), obufBytes_succ,
      writeBytes_concat _ _ _ _ (by simp; omega)]
    simp

/-- Settles O57: `movob` is a run of copies inside the two buffers. -/
theorem movobCopiesObufIntoIbuf : Obligations.MovobCopiesObufIntoIbuf := by
  intro i j n s hwf
  simp only [HostLine.wf, Bool.and_eq_true, decide_eq_true_eq] at hwf
  obtain ⟨hi, hj⟩ := hwf
  refine ⟨_, runActs_copies s i j n hi hj, rfl, fun k => ?_, rfl⟩
  rw [getElem_writeBytes, length_obufBytes]
  split
  next hin => simp [obufBytes, show k.val - j < n by omega]
  next => rfl

/-! ### One voice frame -/

/-- `sdframe` presents its frame to the assembler as it is (30_encoding.md R87, 45_slowdata.md R210). -/
theorem presentVoiceFrame_eq (f : VoiceFrame) (s : State) :
    ∃ u r, SameAssembler s u ∧ r = presentFrame defaultTables f.seq f.aux u ∧
      presentVoiceFrame f s = .next { r.1 with status := statusWord r.2 false 0xA } := by
  let u : State := { s with ibuf := writeBytes s.ibuf 0 [f.seq, f.aux[0], f.aux[1], f.aux[2]] }
  have hseq : operandSeq u = f.seq := by simp [operandSeq, u, getElem_writeBytes]
  have haux : operandAux u = f.aux := by
    refine Vector.ext fun i hi => ?_
    interval_cases i <;> simp [operandAux, u, getElem_writeBytes]
  refine ⟨u, _, ⟨rfl, rfl, rfl, rfl⟩, rfl, ?_⟩
  rw [← hseq, ← haux, ← exec_sdFrame]
  exact runActs_concat (runActs_writesFrom_ibuf s 0 _ (by simp))

theorem presentVoiceFrames_cons {f : VoiceFrame} {s t : State} (h : presentVoiceFrame f s = .next t)
    (rest : List VoiceFrame) : presentVoiceFrames (f :: rest) s = presentVoiceFrames rest t := by
  rw [presentVoiceFrames, h]

/-- The frame of step `n` of a text, with the byte `m` in the marker's place on an odd step (45_slowdata.md R205). -/
def SdStep.textFrame (x : Vector Byte 20) (m : Byte) : SdStep → VoiceFrame
  | .s1 => scrambledFrame 1 m x[0] x[1]
  | .s2 => scrambledFrame 2 x[2] x[3] x[4]
  | .s3 => scrambledFrame 3 m x[5] x[6]
  | .s4 => scrambledFrame 4 x[7] x[8] x[9]
  | .s5 => scrambledFrame 5 m x[10] x[11]
  | .s6 => scrambledFrame 6 x[12] x[13] x[14]
  | .s7 => scrambledFrame 7 m x[15] x[16]
  | .s8 => scrambledFrame 8 x[17] x[18] x[19]

/-- Step `n` has no marker, or its marker is `m` (45_slowdata.md R206). -/
def SdStep.AcceptsMarker (n : SdStep) (m : Byte) : Prop := ∀ k, n.marker defaultTables = some k → m = k

theorem unscramble_scrambledFrame (n x y z : Byte) : unscramble (scrambledFrame n x y z).aux = #v[x, y, z] := by
  simp [unscramble, scrambledFrame, sdKey]

section
variable (n : SdStep) (x : Vector Byte 20) (m : Byte)

theorem SdStep.textFrame_seq : (n.textFrame x m).seq = n.num.setWidth 8 := by cases n <;> rfl

theorem SdStep.textFrame_not_sync : isSyncFrame (n.textFrame x m).seq (n.textFrame x m).aux = false := by
  have hpos : (n.textFrame x m).seq ≠ 0x00 := by
    rw [SdStep.textFrame_seq]
    cases n <;> decide
  rw [isSyncFrame, decide_eq_false hpos, Bool.false_and]

theorem SdStep.textFrame_markerMatches_iff :
    markerMatches defaultTables n (unscramble (n.textFrame x m).aux) = true ↔ n.AcceptsMarker m := by
  cases n <;>
    simp [markerMatches, SdStep.AcceptsMarker, SdStep.marker, SdStep.textFrame, unscramble_scrambledFrame]

/-- The frame of step `n` presented in Armed(n): the marker test decides. -/
theorem presentFrame_of_textFrame {u : State} (hc : u.sdCtl = .armed n) :
    presentFrame defaultTables (n.textFrame x m).seq (n.textFrame x m).aux u =
      if markerMatches defaultTables n (unscramble (n.textFrame x m).aux) then
        acceptStep n (unscramble (n.textFrame x m).aux) u
      else (disarm u, .markerFail) := by
  rw [presentFrame, n.textFrame_not_sync, if_neg Bool.false_ne_true, n.textFrame_seq]
  simp only [hc, ne_eq, not_true_eq_false, if_false]

/-- The recovered bytes of step `n` are the text's from `BASE[n]` on (45_slowdata.md R205). -/
theorem SdStep.textFrame_recovered :
    n.recovered (unscramble (n.textFrame x m).aux) =
      (List.range (n.recovered (unscramble (n.textFrame x m).aux)).length).map fun i => x.getD (n.base + i) 0 := by
  cases n <;>
    simp [SdStep.textFrame, unscramble_scrambledFrame, SdStep.recovered, SdStep.base, Vector.getD, List.range_succ]

end

/-! ### A message, frame by frame -/

/-- From state `s`, `t` is armed for step `n` of the text `x` and has collected the steps before it. -/
structure Collected (x : Vector Byte 20) (s : State) (n : SdStep) (t : State) : Prop where
  ctl : t.sdCtl = .armed n
  buf : ∀ i (h : i < 20), i < n.base → t.sdBuf[i] = x[i]
  text : t.sdText = s.sdText
  tvalid : t.sdTvalid = s.sdTvalid

/-- From state `s`, `t` is disarmed and nothing was emitted. -/
structure Failed (s t : State) : Prop where
  ctl : t.sdCtl = .disarmed
  buf : t.sdBuf = zeroBytes 20
  text : t.sdText = s.sdText
  tvalid : t.sdTvalid = s.sdTvalid

/-- `t` has just emitted the text `x`. -/
structure Emitted (x : Vector Byte 20) (t : State) : Prop where
  ctl : t.sdCtl = .disarmed
  buf : t.sdBuf = zeroBytes 20
  text : t.sdText = x.push 0x00
  tvalid : t.sdTvalid = true
  status : t.status = 0x6A

/-- Step `n`'s bytes extend the collected text up to where they end. -/
theorem getElem_writeBytes_textFrame {x buf : Vector Byte 20} {n : SdStep} (m : Byte)
    (h : ∀ i (h : i < 20), i < n.base → buf[i] = x[i]) {i : Nat} (hi : i < 20)
    (hend : i < n.base + (n.recovered (unscramble (n.textFrame x m).aux)).length) :
    (writeBytes buf n.base (n.recovered (unscramble (n.textFrame x m).aux)))[i] = x[i] := by
  rw [getElem_writeBytes]
  by_cases hbase : n.base ≤ i
  · have hlen : i - n.base < (n.recovered (unscramble (n.textFrame x m).aux)).length := by omega
    rw [if_pos ⟨hbase, hend⟩, n.textFrame_recovered]
    simp [hlen, Nat.add_sub_cancel' hbase, Vector.getD, hi]
  · rw [if_neg (by omega), h i hi (by omega)]

section
variable {x : Vector Byte 20} {s t : State} {n : SdStep} {m : Byte}

/-- The sync frame starts a message. -/
theorem exists_collected_of_sync (x : Vector Byte 20) (s : State) :
    ∃ t, presentVoiceFrame syncFrame s = .next t ∧ Collected x s .s1 t := by
  obtain ⟨u, r, ⟨-, -, htext, htvalid⟩, rfl, h⟩ := presentVoiceFrame_eq syncFrame s
  have hp : presentFrame defaultTables syncFrame.seq syncFrame.aux u = (armOnSync u, .sync) := rfl
  rw [hp] at h
  exact ⟨_, h, rfl, fun i _ hi => absurd hi (Nat.not_lt_zero i), htext, htvalid⟩

/-- The expected frame with the right marker extends the collected text. -/
theorem Collected.accepted {n' : SdStep} (ht : Collected x s n t) (hn : n.next = some n') (hm : n.AcceptsMarker m) :
    ∃ u, presentVoiceFrame (n.textFrame x m) t = .next u ∧ Collected x s n' u := by
  obtain ⟨u, r, ⟨hctl, hbuf, htext, htvalid⟩, rfl, h⟩ := presentVoiceFrame_eq (n.textFrame x m) t
  rw [presentFrame_of_textFrame n x m (hctl.trans ht.ctl), if_pos ((n.textFrame_markerMatches_iff x m).2 hm)] at h
  simp only [acceptStep, hn, hbuf, State.withSdBuf, State.withSdCtl] at h
  obtain ⟨-, hbase⟩ := SdStep.next_spec n n' hn (unscramble (n.textFrame x m).aux)
  refine ⟨_, h, rfl, fun i hi hend => ?_, htext.trans ht.text, htvalid.trans ht.tvalid⟩
  rw [hbase] at hend
  exact getElem_writeBytes_textFrame m ht.buf hi hend

/-- Step 8 has no marker: its frame emits the text. -/
theorem Collected.emitted (ht : Collected x s .s8 t) :
    ∃ u, presentVoiceFrame (SdStep.s8.textFrame x m) t = .next u ∧ Emitted x u := by
  obtain ⟨u, r, ⟨hctl, hbuf, -, -⟩, rfl, h⟩ := presentVoiceFrame_eq (SdStep.s8.textFrame x m) t
  have hmarker : markerMatches defaultTables .s8 (unscramble (SdStep.s8.textFrame x m).aux) = true := rfl
  rw [presentFrame_of_textFrame .s8 x m (hctl.trans ht.ctl), if_pos hmarker] at h
  have hfull : writeBytes t.sdBuf SdStep.s8.base (SdStep.s8.recovered (unscramble (SdStep.s8.textFrame x m).aux)) = x :=
    Vector.ext fun i hi => getElem_writeBytes_textFrame (n := .s8) m ht.buf hi hi
  simp only [acceptStep, SdStep.next, hbuf, hfull] at h
  exact ⟨_, h, rfl, rfl, rfl, rfl, rfl⟩

/-- The expected frame with a wrong marker disarms (45_slowdata.md R206). -/
theorem Collected.failed (ht : Collected x s n t) (hm : ¬ n.AcceptsMarker m) :
    ∃ u, presentVoiceFrame (n.textFrame x m) t = .next u ∧ Failed s u := by
  obtain ⟨u, r, ⟨hctl, -, htext, htvalid⟩, rfl, h⟩ := presentVoiceFrame_eq (n.textFrame x m) t
  rw [presentFrame_of_textFrame n x m (hctl.trans ht.ctl), if_neg (mt (n.textFrame_markerMatches_iff x m).1 hm)] at h
  exact ⟨_, h, rfl, rfl, htext.trans ht.text, htvalid.trans ht.tvalid⟩

/-- Once disarmed, the rest of the text changes nothing (45_slowdata.md R209). -/
theorem Failed.next (ht : Failed s t) (n : SdStep) (x : Vector Byte 20) (m : Byte) :
    ∃ u, presentVoiceFrame (n.textFrame x m) t = .next u ∧ Failed s u := by
  obtain ⟨u, r, ⟨hctl, hbuf, htext, htvalid⟩, rfl, h⟩ := presentVoiceFrame_eq (n.textFrame x m) t
  have hp : presentFrame defaultTables (n.textFrame x m).seq (n.textFrame x m).aux u = (u, .idle) := by
    simp [presentFrame, n.textFrame_not_sync, hctl, ht.ctl]
  rw [hp] at h
  exact ⟨_, h, hctl.trans ht.ctl, hbuf.trans ht.buf, htext.trans ht.text, htvalid.trans ht.tvalid⟩

end

/-- The steps from `n` to 8, in order (45_slowdata.md R207). -/
inductive StepsFrom : SdStep → List SdStep → Prop where
  | last : StepsFrom .s8 [.s8]
  | next {n n' : SdStep} {rest : List SdStep} (hn : n.next = some n') (h : StepsFrom n' rest) : StepsFrom n (n :: rest)

/-- The frames of the steps `ns` of a text, with the byte `μ n` in the marker's place of step `n`. -/
def framesOf (x : Vector Byte 20) (μ : SdStep → Byte) (ns : List SdStep) : List VoiceFrame :=
  ns.map fun n => n.textFrame x (μ n)

theorem Failed.rest {s t : State} (ht : Failed s t) (x : Vector Byte 20) (μ : SdStep → Byte) (ns : List SdStep) :
    ∃ u, presentVoiceFrames (framesOf x μ ns) t = .next u ∧ Failed s u := by
  induction ns generalizing t with
  | nil => exact ⟨t, rfl, ht⟩
  | cons n ns ih =>
    obtain ⟨u, hu, hfailed⟩ := ht.next n x (μ n)
    obtain ⟨v, hv⟩ := ih hfailed
    exact ⟨v, by rwa [framesOf, List.map_cons, presentVoiceFrames_cons hu]⟩

/-- What is left of a message emits the text when every marker matches, and emits nothing and disarms when one does not. -/
theorem Collected.rest {x : Vector Byte 20} {s : State} {μ : SdStep → Byte} {n : SdStep} {ns : List SdStep}
    (hns : StepsFrom n ns) {t : State} (ht : Collected x s n t) :
    ∃ u, presentVoiceFrames (framesOf x μ ns) t = .next u ∧
      ((∀ k ∈ ns, k.AcceptsMarker (μ k)) → Emitted x u) ∧ ((∃ k ∈ ns, ¬ k.AcceptsMarker (μ k)) → Failed s u) := by
  induction hns generalizing t with
  | last =>
    obtain ⟨u, hu, hemitted⟩ := ht.emitted (m := μ .s8)
    refine ⟨u, by rw [framesOf, List.map_cons, presentVoiceFrames_cons hu]; rfl, fun _ => hemitted, ?_⟩
    simp [SdStep.AcceptsMarker, SdStep.marker]
  | @next n n' ns hn hns ih =>
    by_cases hm : n.AcceptsMarker (μ n)
    · obtain ⟨u, hu, hcollected⟩ := ht.accepted hn hm
      obtain ⟨v, hv, hall, hex⟩ := ih hcollected
      refine ⟨v, by rwa [framesOf, List.map_cons, presentVoiceFrames_cons hu], ?_, ?_⟩
      · exact fun hok => hall fun k hk => hok k (List.mem_cons_of_mem _ hk)
      · rintro ⟨k, hk, hwrong⟩
        rcases List.mem_cons.1 hk with rfl | hk
        · exact absurd hm hwrong
        · exact hex ⟨k, hk, hwrong⟩
    · obtain ⟨u, hu, hfailed⟩ := ht.failed hm
      obtain ⟨v, hv, hrest⟩ := hfailed.rest x μ ns
      refine ⟨v, by rwa [framesOf, List.map_cons, presentVoiceFrames_cons hu], ?_, fun _ => hrest⟩
      exact fun hok => absurd (hok n List.mem_cons_self) hm

/-! ### A whole message -/

/-- The steps of a message. -/
def allSteps : List SdStep := [.s1, .s2, .s3, .s4, .s5, .s6, .s7, .s8]

theorem stepsFrom_s1 : StepsFrom .s1 allSteps :=
  .next rfl (.next rfl (.next rfl (.next rfl (.next rfl (.next rfl (.next rfl .last))))))

/-- The bytes in the marker's place of the four odd steps. -/
def markerBytes (m1 m3 m5 m7 : Byte) : SdStep → Byte
  | .s1 => m1
  | .s3 => m3
  | .s5 => m5
  | .s7 => m7
  | .s2 | .s4 | .s6 | .s8 => 0x00

theorem textFrames_eq (x : Vector Byte 20) (m1 m3 m5 m7 : Byte) :
    textFrames x m1 m3 m5 m7 = framesOf x (markerBytes m1 m3 m5 m7) allSteps := rfl

/-- Every marker of a message matches when the four bytes are the default markers. -/
theorem forall_acceptsMarker_iff (m1 m3 m5 m7 : Byte) :
    (∀ k ∈ allSteps, k.AcceptsMarker (markerBytes m1 m3 m5 m7 k)) ↔ m1 = 0x40 ∧ m3 = 0x41 ∧ m5 = 0x42 ∧ m7 = 0x43 := by
  have h1 : SdStep.s1.marker defaultTables = some 0x40 := rfl
  have h3 : SdStep.s3.marker defaultTables = some 0x41 := rfl
  have h5 : SdStep.s5.marker defaultTables = some 0x42 := rfl
  have h7 : SdStep.s7.marker defaultTables = some 0x43 := rfl
  have heven (n : SdStep) (hn : n.num.toNat % 2 = 0) : n.marker defaultTables = none := by
    rw [SdStep.marker_defaultTables, if_neg (by omega)]
  simp [allSteps, SdStep.AcceptsMarker, markerBytes, h1, h3, h5, h7, heven, SdStep.num]

/-- A message from any state: it emits the text or fails closed, as its markers say. -/
theorem presentVoiceFrames_message (x : Vector Byte 20) (m1 m3 m5 m7 : Byte) (s : State) :
    ∃ t, presentVoiceFrames (syncFrame :: textFrames x m1 m3 m5 m7) s = .next t ∧
      (m1 = 0x40 ∧ m3 = 0x41 ∧ m5 = 0x42 ∧ m7 = 0x43 → Emitted x t) ∧
      (¬ (m1 = 0x40 ∧ m3 = 0x41 ∧ m5 = 0x42 ∧ m7 = 0x43) → Failed s t) := by
  obtain ⟨u, hu, hcollected⟩ := exists_collected_of_sync x s
  obtain ⟨t, ht, hall, hex⟩ := hcollected.rest (μ := markerBytes m1 m3 m5 m7) stepsFrom_s1
  rw [presentVoiceFrames_cons hu, textFrames_eq, ← forall_acceptsMarker_iff]
  exact ⟨t, ht, hall, fun hwrong => hex (by simpa only [not_forall, exists_prop] using hwrong)⟩

/-- Settles O51: with the four default markers the message emits. -/
theorem canonicalFramesEmitTheText : Obligations.CanonicalFramesEmitTheText := by
  intro x s
  obtain ⟨t, ht, hemit, -⟩ := presentVoiceFrames_message x 0x40 0x41 0x42 0x43 s
  obtain ⟨hctl, hbuf, htext, htvalid, hstatus⟩ := hemit ⟨rfl, rfl, rfl, rfl⟩
  refine ⟨t, ht, fun i => ?_, ?_, htvalid, sdArmed_disarmed hctl, sdStep_disarmed hctl, fun i => ?_, hstatus⟩
  · simp [htext]
  · simp [htext]
  · simp [hbuf]

/-- Settles O52: with a wrong marker the message fails. -/
theorem wrongMarkerFailsClosed : Obligations.WrongMarkerFailsClosed := by
  intro x m1 m3 m5 m7 s hwrong
  obtain ⟨t, ht, -, hfail⟩ := presentVoiceFrames_message x m1 m3 m5 m7 s
  obtain ⟨hctl, hbuf, htext, htvalid⟩ := hfail (by rintro ⟨rfl, rfl, rfl, rfl⟩; simp at hwrong)
  exact ⟨t, ht, htext, htvalid, sdArmed_disarmed hctl, sdStep_disarmed hctl, fun i => by simp [hbuf]⟩

end Sys2Proof.Machine
end

section
/-! PROOFS. The Golay code (40_golay.md §1). First linearity, for any generator: of the division step, of the remainder and
of the overall parity bit. By it the distance of two codewords is the weight of a third. Then the division itself. -/

namespace Sys2Proof.Machine

/-! ### Linearity of the parity (R101) -/

/-- A term that is added when one of two bits is set, but not both, is the sum of the term added for each. -/
theorem ite_xor_zero {w : Nat} (p q : Bool) (a : BitVec w) :
    (if p ^^ q then a else 0) = (if p then a else 0) ^^^ (if q then a else 0) := by
  cases p <;> cases q <;> simp

/-- A division step as a sum. -/
theorem golayShift_eq (g r : BitVec 12) :
    golayShift g r = (r <<< 1) ^^^ (if (r <<< 1).getLsbD 11 then g else 0) := by
  unfold golayShift
  split <;> simp

theorem golayShift_xor (g r r' : BitVec 12) : golayShift g (r ^^^ r') = golayShift g r ^^^ golayShift g r' := by
  simp only [golayShift_eq, BitVec.shiftLeft_xor_distrib, BitVec.getLsbD_xor, ite_xor_zero]
  ac_rfl

theorem golayRemainder_xor (g : BitVec 12) (a b : Byte) :
    golayRemainder g (a ^^^ b) = golayRemainder g a ^^^ golayRemainder g b := by
  have hfold (l : List Nat) (r r' : BitVec 12) :
      l.foldl (fun r i => golayShift g (r ^^^ (if (a ^^^ b).getLsbD i then 0x400 else 0))) (r ^^^ r') =
        l.foldl (fun r i => golayShift g (r ^^^ (if a.getLsbD i then 0x400 else 0))) r ^^^
          l.foldl (fun r i => golayShift g (r ^^^ (if b.getLsbD i then 0x400 else 0))) r' := by
    induction l generalizing r r' with
    | nil => rfl
    | cons i l ih =>
      simp only [List.foldl_cons, ← ih, ← golayShift_xor, BitVec.getLsbD_xor, ite_xor_zero]
      congr 2
      ac_rfl
  exact hfold _ 0 0

/-- A sum of two bit arrays has as many bits set as both together, up to an even number. -/
theorem popcount_xor_mod_two {w : Nat} (u v : BitVec w) :
    popcount (u ^^^ v) % 2 = (popcount u + popcount v) % 2 := by
  have hlist (l : List Nat) :
      (l.filter fun i => (u ^^^ v).getLsbD i).length % 2 =
        ((l.filter fun i => u.getLsbD i).length + (l.filter fun i => v.getLsbD i).length) % 2 := by
    induction l with
    | nil => rfl
    | cons i l ih =>
      simp only [BitVec.getLsbD_xor] at ih ⊢
      cases hu : u.getLsbD i <;> cases hv : v.getLsbD i <;> simp [hu, hv] <;> omega
  exact hlist _

/-- The remainder's shift leaves bit 0 to the overall parity (40_golay.md R101). -/
theorem golayRule_eq_xor (g : BitVec 12) (d : Byte) :
    golayRule g d =
      (golayRemainder g d <<< 1) ^^^ BitVec.ofNat 12 ((popcount d + popcount (golayRemainder g d)) % 2) := by
  unfold golayRule
  rcases Nat.mod_two_eq_zero_or_one (popcount d + popcount (golayRemainder g d)) with h | h
  · simp [h]
  · refine BitVec.eq_of_getLsbD_eq fun i hi => ?_
    cases i <;> simp [h]

theorem golayRule_xor (g : BitVec 12) (a b : Byte) : golayRule g (a ^^^ b) = golayRule g a ^^^ golayRule g b := by
  have hmod (m n : Nat) : BitVec.ofNat 12 ((m + n) % 2) = BitVec.ofNat 12 (m % 2) ^^^ BitVec.ofNat 12 (n % 2) := by
    rcases Nat.mod_two_eq_zero_or_one m with hm | hm <;> rcases Nat.mod_two_eq_zero_or_one n with hn | hn <;>
      simp [Nat.add_mod, hm, hn]
  have hparity : (popcount (a ^^^ b) + popcount (golayRemainder g a ^^^ golayRemainder g b)) % 2 =
      ((popcount a + popcount (golayRemainder g a)) + (popcount b + popcount (golayRemainder g b))) % 2 := by
    have ha := popcount_xor_mod_two a b
    have hr := popcount_xor_mod_two (golayRemainder g a) (golayRemainder g b)
    omega
  simp only [golayRule_eq_xor, golayRemainder_xor, BitVec.shiftLeft_xor_distrib, hparity, hmod]
  ac_rfl

theorem golayParity_xor (a b : Byte) :
    golayParity defaultTables (a ^^^ b) = golayParity defaultTables a ^^^ golayParity defaultTables b := by
  simp only [golayTableAgreesWithRule _, golayRule_xor]

/-- Settles O25: the table is the rule's, which is linear for every generator; the basis is read off the table. -/
theorem golayParityIsLinear : Obligations.GolayParityIsLinear :=
  ⟨golayParity_xor, rfl, rfl, rfl, rfl, rfl, rfl, rfl, rfl⟩

/-! ### The distance (R101) -/

theorem golayCodeword_xor (a b : Byte) :
    golayCodeword defaultTables (a ^^^ b) = golayCodeword defaultTables a ^^^ golayCodeword defaultTables b := by
  refine BitVec.eq_of_getLsbD_eq fun i hi => ?_
  simp only [golayCodeword, golayParity_xor, BitVec.getLsbD_xor, BitVec.getLsbD_append]
  split <;> rfl

/-- The weights of the 255 nonzero codewords. -/
theorem popcount_golayCodeword : ∀ d : Byte, d ≠ 0 → 8 ≤ popcount (golayCodeword defaultTables d) := by decide +kernel

/-- Settles O26: the code is linear, so the difference of two codewords is a nonzero codeword. -/
theorem golayMinimumDistanceEight : Obligations.GolayMinimumDistanceEight := by
  intro a b hab
  rw [← golayCodeword_xor]
  exact popcount_golayCodeword _ fun h => hab (BitVec.xor_eq_zero_iff.1 h)

/-! ### The division (R101) -/

/-- The quotient of `d(x)·x^11` by the generator: the bits that long division subtracts at, from the highest down. -/
def golayQuotient (g : BitVec 12) (d : Byte) : Byte :=
  ([7, 6, 5, 4, 3, 2, 1, 0].foldl (fun (p : Byte × BitVec 12) i =>
    let r := p.2 ^^^ (if d.getLsbD i then 0x400 else 0)
    ((p.1 <<< 1) ||| (if (r <<< 1).getLsbD 11 then 1 else 0), golayShift g r)) (0, 0)).1

/-- The division's equation and the degree of its remainder, for each of the 256 dividends. -/
theorem golayQuotient_spec : ∀ d : Byte, (golayRemainder 0xC75 d).getLsbD 11 = false ∧
    clmul (golayQuotient 0xC75 d) 0xC75 ^^^ (golayRemainder 0xC75 d).setWidth 20 = d.setWidth 20 <<< 11 := by
  decide +kernel

/-- Settles O23: the multiple of the generator is the one the quotient gives. -/
theorem golayRemainderDivides : Obligations.GolayRemainderDivides := fun d =>
  ⟨(golayQuotient_spec d).1, _, (golayQuotient_spec d).2⟩

end Sys2Proof.Machine
end

section
/-! PROOFS. The Reed-Solomon code (42_rs129.md). First the shift register is linear, for any tables. Then the register's
content as a polynomial: at a root of the generator it is the message shifted by three, so message and register vanish
together; three values of a quadratic determine it, so nothing else does. The obligations follow, and the EXP and LOG
tables of §1. -/

namespace Sys2Proof.Machine

/-! ### EXP and LOG (R140) -/

/-- LOG inverts EXP below the order of `α` (42_rs129.md R140). -/
theorem gfLog_gfExp {prim : BitVec 9} (hprim : gfPrimitive prim = true) {i : Nat} (hi : i < 255) :
    gfLog prim (gfExp prim i) = i := by
  have hlog : gfLog prim (gfExp prim i) < 255 := by
    have hfound : (List.range 255).findIdx (fun j => gfExp prim j = gfExp prim i) < (List.range 255).length :=
      List.findIdx_lt_length_of_exists ⟨i, List.mem_range.2 hi, by simp⟩
    simpa [gfLog] using hfound
  exact gfExp_injOn hprim (by simpa using hlog) (by simpa using hi) (gfExp_gfLog hprim (gfExp_ne_zero hprim i))

/-- Settles O32: the entries are computed, and LOG inverts EXP as 0x11D is primitive. -/
theorem expAndLogTables : Obligations.ExpAndLogTables :=
  ⟨by decide, by decide +kernel, fun i => gfLog_gfExp gfPrimitive_0x11D i.isLt⟩

/-! ### The shift register is linear (R144) -/

/-- The exclusive-or of two parities, byte by byte. -/
def Parity.xor (p q : Parity) : Parity := ⟨p.r0 ^^^ q.r0, p.r1 ^^^ q.r1, p.r2 ^^^ q.r2⟩

theorem Parity.eq_of_bytes {p q : Parity} (h0 : p.r0 = q.r0) (h1 : p.r1 = q.r1) (h2 : p.r2 = q.r2) : p = q := by
  cases p
  cases q
  simp_all

section
variable (T : Tables)

theorem rsShift_xor (p q : Parity) (m n : Byte) :
    rsShift T (p.xor q) (m ^^^ n) = (rsShift T p m).xor (rsShift T q n) := by
  have hf : m ^^^ n ^^^ (p.r0 ^^^ q.r0) = m ^^^ p.r0 ^^^ (n ^^^ q.r0) := by ac_rfl
  simp only [rsShift, Parity.xor, hf, gmul_xor, Parity.mk.injEq, and_true]
  constructor <;> ac_rfl

theorem foldl_rsShift_xor (l l' : List Byte) (h : l.length = l'.length) (p q : Parity) :
    (List.zipWith (· ^^^ ·) l l').foldl (rsShift T) (p.xor q) =
      (l.foldl (rsShift T) p).xor (l'.foldl (rsShift T) q) := by
  induction l generalizing l' p q with
  | nil => rw [List.length_eq_zero_iff.1 h.symm]; rfl
  | cons m l ih =>
    match l', h with
    | n :: l', h => simp only [List.zipWith_cons_cons, List.foldl_cons, rsShift_xor, ih l' (by simpa using h)]

theorem rsParity_xor (x y : Vector Byte 9) :
    rsParity T (Vector.zipWith (· ^^^ ·) x y) = (rsParity T x).xor (rsParity T y) := by
  have hzero : (⟨0, 0, 0⟩ : Parity) = Parity.xor ⟨0, 0, 0⟩ ⟨0, 0, 0⟩ := rfl
  unfold rsParity
  rw [hzero, Vector.toList_zipWith, foldl_rsShift_xor T _ _ (by simp), ← hzero]

end

/-- Operand bytes that are sums give operands that are sums. -/
theorem operandBytes_xor {a b c : State} {n : Nat} (hn : n ≤ 33)
    (h : ∀ i : Fin n, c.ibuf[i.val] = a.ibuf[i.val] ^^^ b.ibuf[i.val]) :
    operandBytes c n hn = Vector.zipWith (· ^^^ ·) (operandBytes a n hn) (operandBytes b n hn) :=
  Vector.ext fun i hi => by simpa using h ⟨i, hi⟩

/-- Settles O36: the operand is the sum of the two, and the shift register is linear. -/
theorem rsParityIsLinear : Obligations.RsParityIsLinear := by
  intro a b c h
  refine ⟨_, _, _, exec_rsParity a, exec_rsParity b, exec_rsParity c, fun i => ?_⟩
  simp only [operandBytes_xor (by decide) h, rsParity_xor, getElem_resultBytes]
  match i with
  | 0 | 1 | 2 => rfl
  | ⟨_ + 3, _⟩ => exact (BitVec.xor_self (x := 0x00#8)).symm

/-! ### Polynomials over the field (R141, R143) -/

theorem gmul_xor_left (a b c : Byte) : gmul 0x11D (a ^^^ b) c = gmul 0x11D a c ^^^ gmul 0x11D b c := by
  simp only [gmul_comm gfPrimitive_0x11D _ c, gmul_xor]

theorem gmul_left_comm (a b c : Byte) : gmul 0x11D a (gmul 0x11D b c) = gmul 0x11D b (gmul 0x11D a c) := by
  rw [← gmul_assoc gfPrimitive_0x11D, gmul_comm gfPrimitive_0x11D a, gmul_assoc gfPrimitive_0x11D]

theorem gmul_ne_zero {a b : Byte} (ha : a ≠ 0) (hb : b ≠ 0) : gmul 0x11D a b ≠ 0 := by
  rw [gmul_eq_gfExp_gfLog gfPrimitive_0x11D, if_neg (not_or.2 ⟨ha, hb⟩)]
  exact gfExp_ne_zero gfPrimitive_0x11D _

theorem gfEval_concat (l : List Byte) (c x : Byte) : gfEval (l ++ [c]) x = gmul 0x11D (gfEval l x) x ^^^ c := by
  simp [gfEval]

/-- The parity bytes as a polynomial of degree 2, at `x` (42_rs129.md R143). -/
def Parity.eval (p : Parity) (x : Byte) : Byte :=
  gmul 0x11D p.r0 (gmul 0x11D x x) ^^^ gmul 0x11D p.r1 x ^^^ p.r2

/-- `x^3`. -/
def gfCube (x : Byte) : Byte := gmul 0x11D (gmul 0x11D x x) x

/-- Message and parity as one polynomial: the message moves up by the three degrees of the parity. -/
theorem gfEval_append_parity (l : List Byte) (p : Parity) (x : Byte) :
    gfEval (l ++ [p.r0, p.r1, p.r2]) x = gmul 0x11D (gfEval l x) (gfCube x) ^^^ p.eval x := by
  have hsplit : l ++ [p.r0, p.r1, p.r2] = ((l ++ [p.r0]) ++ [p.r1]) ++ [p.r2] := by simp
  rw [hsplit, gfEval_concat, gfEval_concat, gfEval_concat]
  simp only [gmul_xor_left, gmul_assoc gfPrimitive_0x11D, gfCube, Parity.eval]
  ac_rfl

theorem Parity.eval_xor (p q : Parity) (x : Byte) : (p.xor q).eval x = p.eval x ^^^ q.eval x := by
  simp only [Parity.eval, Parity.xor, gmul_xor_left]
  ac_rfl

/-- Squaring is linear in characteristic 2. -/
theorem gmul_xor_self (u v : Byte) :
    gmul 0x11D (u ^^^ v) (u ^^^ v) = gmul 0x11D u u ^^^ gmul 0x11D v v := by
  rw [gmul_xor, gmul_xor_left, gmul_xor_left, gmul_comm gfPrimitive_0x11D v u]
  simp [BitVec.xor_assoc]

/-- The difference of two values of a quadratic has the difference of the points as a factor. -/
theorem Parity.eval_xor_eval (p : Parity) (u v : Byte) :
    p.eval u ^^^ p.eval v = gmul 0x11D (u ^^^ v) (gmul 0x11D p.r0 (u ^^^ v) ^^^ p.r1) := by
  have hcancel (a b c d e : Byte) : a ^^^ b ^^^ e ^^^ (c ^^^ d ^^^ e) = a ^^^ c ^^^ (b ^^^ d) := by
    have hswap : a ^^^ b ^^^ e ^^^ (c ^^^ d ^^^ e) = a ^^^ c ^^^ (b ^^^ d) ^^^ (e ^^^ e) := by ac_rfl
    rw [hswap, BitVec.xor_self, BitVec.xor_zero]
  calc p.eval u ^^^ p.eval v
    _ = gmul 0x11D p.r0 (gmul 0x11D u u ^^^ gmul 0x11D v v) ^^^ gmul 0x11D p.r1 (u ^^^ v) := by
        rw [Parity.eval, Parity.eval, hcancel, gmul_xor, gmul_xor]
    _ = gmul 0x11D (u ^^^ v) (gmul 0x11D p.r0 (u ^^^ v) ^^^ p.r1) := by
        rw [← gmul_xor_self, gmul_xor 0x11D (u ^^^ v) _ p.r1, gmul_left_comm (u ^^^ v) p.r0,
          gmul_comm gfPrimitive_0x11D p.r1]

/-- A quadratic with three distinct roots is zero. -/
theorem Parity.eq_zero_of_eval {p : Parity} {a b c : Byte} (hab : a ≠ b) (hac : a ≠ c) (hbc : b ≠ c)
    (ha : p.eval a = 0) (hb : p.eval b = 0) (hc : p.eval c = 0) : p = ⟨0, 0, 0⟩ := by
  have hfactor {u v : Byte} (huv : u ≠ v) (hu : p.eval u = 0) (hv : p.eval v = 0) :
      gmul 0x11D p.r0 (u ^^^ v) ^^^ p.r1 = 0 := by
    by_contra hne
    refine gmul_ne_zero (mt BitVec.xor_eq_zero_iff.1 huv) hne ?_
    rw [← Parity.eval_xor_eval, hu, hv]
    rfl
  have h1 : gmul 0x11D p.r0 (a ^^^ b) = p.r1 := BitVec.xor_eq_zero_iff.1 (hfactor hab ha hb)
  have h2 : gmul 0x11D p.r0 (a ^^^ c) = p.r1 := BitVec.xor_eq_zero_iff.1 (hfactor hac ha hc)
  have hr0 : p.r0 = 0 := by
    have hbc' : b ^^^ c = (a ^^^ b) ^^^ (a ^^^ c) := by
      rw [BitVec.xor_comm a b, BitVec.xor_assoc, ← BitVec.xor_assoc a a c, BitVec.xor_self, BitVec.zero_xor]
    by_contra hne
    refine gmul_ne_zero hne (mt BitVec.xor_eq_zero_iff.1 hbc) ?_
    rw [hbc', gmul_xor, h1, h2]
    exact BitVec.xor_self
  have hr1 : p.r1 = 0 := by rw [← h1, hr0]; exact gmul_zero_left _ _
  have hr2 : p.r2 = 0 := by simpa [Parity.eval, hr0, hr1] using ha
  exact Parity.eq_of_bytes hr0 hr1 hr2

/-! ### The generator's roots (R142, R143) -/

/-- `x` is a root of the default generator `x^3 + 14x^2 + 56x + 64`. -/
def IsGeneratorRoot (x : Byte) : Prop := gmul 0x11D 14 (gmul 0x11D x x) ^^^ gmul 0x11D 56 x ^^^ 64 = gfCube x

theorem isGeneratorRoot_two : IsGeneratorRoot 0x02 := by unfold IsGeneratorRoot; decide +kernel

theorem isGeneratorRoot_four : IsGeneratorRoot 0x04 := by unfold IsGeneratorRoot; decide +kernel

theorem isGeneratorRoot_eight : IsGeneratorRoot 0x08 := by unfold IsGeneratorRoot; decide +kernel

/-- One step of the register with the default tables, the fed-back byte being `m ^ r0` (42_rs129.md R144). -/
theorem rsShift_defaultTables (p : Parity) (m : Byte) :
    rsShift defaultTables p m =
      ⟨p.r1 ^^^ gmul 0x11D 14 (m ^^^ p.r0), p.r2 ^^^ gmul 0x11D 56 (m ^^^ p.r0), gmul 0x11D 64 (m ^^^ p.r0)⟩ := rfl

/-- At a root of the generator the fed-back byte counts as if at `x^3`. -/
theorem gmul_gfCube_of_root {x : Byte} (hx : IsGeneratorRoot x) (f : Byte) :
    gmul 0x11D f (gfCube x) =
      gmul 0x11D (gmul 0x11D 14 f) (gmul 0x11D x x) ^^^ gmul 0x11D (gmul 0x11D 56 f) x ^^^ gmul 0x11D 64 f := by
  rw [← hx, gmul_xor, gmul_xor, ← gmul_assoc gfPrimitive_0x11D f 14, ← gmul_assoc gfPrimitive_0x11D f 56,
    gmul_comm gfPrimitive_0x11D f 14, gmul_comm gfPrimitive_0x11D f 56, gmul_comm gfPrimitive_0x11D f 64]

/-- At a root of the generator one step of the register multiplies its polynomial by `x` and adds the new byte times
`x^3`. -/
theorem Parity.eval_rsShift {x : Byte} (hx : IsGeneratorRoot x) (p : Parity) (m : Byte) :
    (rsShift defaultTables p m).eval x = gmul 0x11D (p.eval x) x ^^^ gmul 0x11D m (gfCube x) := by
  have hfeed := gmul_gfCube_of_root hx (m ^^^ p.r0)
  calc (rsShift defaultTables p m).eval x
    _ = gmul 0x11D p.r1 (gmul 0x11D x x) ^^^ gmul 0x11D p.r2 x ^^^ gmul 0x11D (m ^^^ p.r0) (gfCube x) := by
        simp only [hfeed, rsShift_defaultTables, Parity.eval, gmul_xor_left p.r1, gmul_xor_left p.r2]
        ac_rfl
    _ = gmul 0x11D (p.eval x) x ^^^ gmul 0x11D m (gfCube x) := by
        rw [gmul_xor_left m, Parity.eval, gmul_xor_left, gmul_xor_left, gmul_assoc gfPrimitive_0x11D p.r0,
          gmul_assoc gfPrimitive_0x11D p.r1, gfCube]
        ac_rfl

/-- At a root of the generator the register holds the message times `x^3`. -/
theorem Parity.eval_foldl_rsShift {x : Byte} (hx : IsGeneratorRoot x) (l : List Byte) :
    (l.foldl (rsShift defaultTables) ⟨0, 0, 0⟩).eval x = gmul 0x11D (gfEval l x) (gfCube x) := by
  induction l using List.reverseRecOn with
  | nil => simp [Parity.eval, gfEval]
  | append_singleton l m ih =>
    rw [List.foldl_append, List.foldl_cons, List.foldl_nil, Parity.eval_rsShift hx, ih, gfEval_concat, gmul_xor_left,
      gmul_assoc gfPrimitive_0x11D, gmul_assoc gfPrimitive_0x11D, gmul_comm gfPrimitive_0x11D (gfCube x)]

/-- At a root of the generator message and parity vanish exactly when the parity agrees with the register there. -/
theorem gfEval_message_parity_eq_zero_iff {x : Byte} (hx : IsGeneratorRoot x) (m : Vector Byte 9) (p : Parity) :
    gfEval (m.toList ++ [p.r0, p.r1, p.r2]) x = 0 ↔ ((rsParity defaultTables m).xor p).eval x = 0 := by
  rw [gfEval_append_parity, ← Parity.eval_foldl_rsShift hx, Parity.eval_xor, rsParity]

/-- Settles O34: the register and a completing parity agree at the generator's three roots, so they are the same. -/
theorem rsParityIsTheOnlyCodeword : Obligations.RsParityIsTheOnlyCodeword := by
  intro m p
  unfold IsRsCodeword
  rw [gfEval_message_parity_eq_zero_iff isGeneratorRoot_two, gfEval_message_parity_eq_zero_iff isGeneratorRoot_four,
    gfEval_message_parity_eq_zero_iff isGeneratorRoot_eight]
  constructor
  · rintro ⟨h2, h4, h8⟩
    have hzero := Parity.eq_zero_of_eval (by decide) (by decide) (by decide) h2 h4 h8
    simp only [Parity.xor, Parity.mk.injEq] at hzero
    obtain ⟨h0, h1, h2⟩ := hzero
    exact Parity.eq_of_bytes (BitVec.xor_eq_zero_iff.1 h0) (BitVec.xor_eq_zero_iff.1 h1) (BitVec.xor_eq_zero_iff.1 h2)
  · rintro rfl
    simp [Parity.xor, Parity.eval]

/-! ### RS_PARITY and LC_ENC (R145 to R147) -/

/-- The message and its parity are a codeword (42_rs129.md R143). -/
theorem isRsCodeword_rsParity (m : Vector Byte 9) :
    IsRsCodeword (m.toList ++ [(rsParity defaultTables m).r0, (rsParity defaultTables m).r1,
      (rsParity defaultTables m).r2]) :=
  (rsParityIsTheOnlyCodeword m _).2 rfl

/-- The first bytes of a buffer, as a list. -/
theorem take_toList_eq {n k : Nat} (v : Vector Byte n) (w : Vector Byte k) (hk : k ≤ n)
    (h : ∀ i (hi : i < k), v[i] = w[i]) : v.toList.take k = w.toList := by
  refine List.ext_getElem (by simpa using hk) fun i hi hi' => ?_
  have hik : i < k := by simpa using hi'
  simpa using h i hik

/-- Settles O35: OBUF starts with the register's parity, and is 0x00 past it. -/
theorem rsParityResult : Obligations.RsParityResult := by
  intro s
  refine ⟨decode_encode .rsParity, _, exec_rsParity s, rfl, ?_, fun i hi => ?_⟩
  · rw [take_toList_eq s.ibuf (operandBytes s 9 (by decide)) (by decide) fun i hi => (getElem_operandBytes s 9 _ i hi).symm]
    have hparity (a b c : Byte) : (resultBytes [a, b, c]).toList.take 3 = [a, b, c] :=
      take_writeBytes (zeroBytes 33) 0 [a, b, c] (by simp)
    rw [hparity]
    exact isRsCodeword_rsParity _
  · rw [getElem_resultBytes, List.getD_eq_default _ _ hi]

section
variable (T : Tables) (dst src : Ident)

/-- The first nine bytes of the link-control block are the information bytes. -/
theorem getElem_linkControl_info {i : Nat} (h : i < 9) : (linkControl T dst src)[i] = (lcInfo dst src)[i] := by
  rw [linkControl_eq]
  exact Vector.getElem_append_left h

/-- The last three are their parity under the mask. -/
theorem getElem_linkControl_parity {i : Nat} (h : i < 3) :
    (linkControl T dst src)[9 + i] =
      #v[(rsParity T (lcInfo dst src)).r0 ^^^ lcMask, (rsParity T (lcInfo dst src)).r1 ^^^ lcMask,
        (rsParity T (lcInfo dst src)).r2 ^^^ lcMask][i] := by
  rw [linkControl_eq, Vector.getElem_append_right (by omega) (by omega)]
  simp

end

/-- The three bytes of a big-endian identifier (20_memory.md R64). -/
theorem extractLsb'_ident (a b c : Byte) :
    (a ++ b ++ c : Ident).extractLsb' 16 8 = a ∧ (a ++ b ++ c : Ident).extractLsb' 8 8 = b ∧
      (a ++ b ++ c : Ident).extractLsb' 0 8 = c := by
  refine ⟨?_, ?_, ?_⟩ <;> refine BitVec.eq_of_getLsbD_eq fun i hi => ?_ <;>
    simp only [BitVec.getLsbD_extractLsb', BitVec.getLsbD_append, decide_eq_true hi, Bool.true_and]
  · rw [if_neg (by omega), if_neg (by omega), show 16 + i - 8 - 8 = i by omega]
  · rw [if_neg (by omega), if_pos (by omega), show 8 + i - 8 = i by omega]
  · rw [if_pos (by omega), Nat.zero_add]

/-- The identifier bytes of LC are IBUF[0..5] as the host wrote them (20_memory.md R64, 42_rs129.md R146). -/
theorem getElem_lcInfo_operands (s : State) (i : Fin 6) :
    (lcInfo (operandDst s) (operandSrc s))[3 + i.val] = s.ibuf[i.val] := by
  obtain ⟨hdst0, hdst1, hdst2⟩ := extractLsb'_ident s.ibuf[0] s.ibuf[1] s.ibuf[2]
  obtain ⟨hsrc0, hsrc1, hsrc2⟩ := extractLsb'_ident s.ibuf[3] s.ibuf[4] s.ibuf[5]
  match i with
  | 0 => exact hdst0
  | 1 => exact hdst1
  | 2 => exact hdst2
  | 3 => exact hsrc0
  | 4 => exact hsrc1
  | 5 => exact hsrc2

/-- Settles O37: the block's bytes are the information bytes and the masked parity, and unmasking undoes the mask. -/
theorem lcEncResult : Obligations.LcEncResult := by
  intro s
  let lc := linkControl defaultTables (operandDst s) (operandSrc s)
  have hbyte (i : Nat) (hi : i < 12) : (resultBytes lc.toList)[i] = lc[i] :=
    getElem_resultBytes_toList_of_lt lc (by omega) hi
  have hinfo (i : Nat) (hi : i < 9) :
      (resultBytes lc.toList)[i] = (lcInfo (operandDst s) (operandSrc s))[i] :=
    (hbyte i (by omega)).trans (getElem_linkControl_info _ _ _ hi)
  refine ⟨decode_encode .lcEnc, _, exec_lcEnc s, rfl, hinfo 0 (by decide), hinfo 1 (by decide), hinfo 2 (by decide),
    fun i => (hinfo (3 + i.val) (by omega)).trans (getElem_lcInfo_operands s i), ?_,
    fun i hi => getElem_resultBytes_toList_of_le lc i.isLt hi⟩
  have hparity (i : Nat) (hi : i < 3) := getElem_linkControl_parity defaultTables (operandDst s) (operandSrc s) hi
  have hunmask (a : Byte) : a ^^^ lcMask ^^^ 0x96 = a := by simp [lcMask]
  rw [take_toList_eq _ (lcInfo (operandDst s) (operandSrc s)) (by decide) hinfo,
    (hbyte 9 (by decide)).trans (hparity 0 (by decide)), (hbyte 10 (by decide)).trans (hparity 1 (by decide)),
    (hbyte 11 (by decide)).trans (hparity 2 (by decide))]
  simp only [Vector.getElem_mk, List.getElem_toArray, List.getElem_cons_zero, List.getElem_cons_succ, hunmask]
  exact isRsCodeword_rsParity _

end Sys2Proof.Machine
end

section
/-! PROOFS. The BPTC carrier (41_bptc.md §3) and the header round trip (95_test_vectors.md §1.2). First every stage of the
encoder is linear, for any tables. Then the minimum weight of the product code: a nonzero row or column has three bits set,
so three columns of a nonzero row have three each. Last the way back from a header carrier to its operands. -/

namespace Sys2Proof.Machine

/-! ### Every stage is linear (R121 to R128) -/

theorem setBit_xor {w : Nat} (m m' : BitVec w) (i : Nat) (b b' : Bool) :
    setBit (m ^^^ m') i (b ^^ b') = setBit m i b ^^^ setBit m' i b' := by
  refine BitVec.eq_of_getLsbD_eq fun j hj => ?_
  simp only [BitVec.getLsbD_xor, getLsbD_setBit]
  split
  · simp [hj]
  · rfl

/-- Scattering sums gives the sum. -/
theorem scatterBits_xor {w : Nat} {α : Type} (l : List α) (pos : α → Nat) (f g : α → Bool) (m m' : BitVec w) :
    scatterBits (m ^^^ m') (l.map fun k => (pos k, f k ^^ g k)) =
      scatterBits m (l.map fun k => (pos k, f k)) ^^^ scatterBits m' (l.map fun k => (pos k, g k)) := by
  induction l generalizing m m' with
  | nil => rfl
  | cons k l ih =>
    simp only [scatterBits, List.map_cons, List.foldl_cons, setBit_xor] at ih ⊢
    exact ih _ _

theorem scatterBits_zero_xor {w : Nat} {α : Type} (l : List α) (pos : α → Nat) (f g : α → Bool) :
    scatterBits (0 : BitVec w) (l.map fun k => (pos k, f k ^^ g k)) =
      scatterBits 0 (l.map fun k => (pos k, f k)) ^^^ scatterBits 0 (l.map fun k => (pos k, g k)) := by
  rw [← scatterBits_xor, BitVec.xor_self]
  rfl

theorem msbStream_xor {n : Nat} (x y : Vector Byte n) (k : Nat) :
    msbStream (Vector.zipWith (· ^^^ ·) x y) k = (msbStream x k ^^ msbStream y k) := by
  by_cases hk : k / 8 < n <;> simp [msbStream, Vector.getD, hk]

section
variable (T : Tables)

theorem bptcPlace_xor (x y : Vector Byte 12) :
    bptcPlace T (Vector.zipWith (· ^^^ ·) x y) = bptcPlace T x ^^^ bptcPlace T y := by
  simp only [bptcPlace, msbStream_xor, scatterBits_zero_xor]

theorem rowParity_xor (m m' : BitVec 196) (r : Nat) (j : Fin 4) :
    rowParity T (m ^^^ m') r j = (rowParity T m r j ^^ rowParity T m' r j) := by
  simp only [rowParity, BitVec.getLsbD_xor, xorBits_map_xor]

theorem colParity_xor (m m' : BitVec 196) (c : Nat) (j : Fin 4) :
    colParity T (m ^^^ m') c j = (colParity T m c j ^^ colParity T m' c j) := by
  simp only [colParity, BitVec.getLsbD_xor, xorBits_map_xor]

theorem encodeRows_xor (m m' : BitVec 196) : encodeRows T (m ^^^ m') = encodeRows T m ^^^ encodeRows T m' := by
  refine BitVec.eq_of_getLsbD_eq fun a ha => ?_
  simp only [BitVec.getLsbD_xor, getLsbD_encodeRows, rowParity_xor, decide_eq_true ha, Bool.true_and]
  split <;> rfl

theorem encodeCols_xor (m m' : BitVec 196) : encodeCols T (m ^^^ m') = encodeCols T m ^^^ encodeCols T m' := by
  refine BitVec.eq_of_getLsbD_eq fun a ha => ?_
  simp only [BitVec.getLsbD_xor, getLsbD_encodeCols, colParity_xor, decide_eq_true ha, Bool.true_and]
  split <;> rfl

theorem interleave_xor (m m' : BitVec 196) : interleave T (m ^^^ m') = interleave T m ^^^ interleave T m' := by
  simp only [interleave, BitVec.getLsbD_xor, scatterBits_zero_xor]

theorem carrierBit_xor (t t' : BitVec 196) (n : Nat) :
    carrierBit (t ^^^ t') n = (carrierBit t n ^^ carrierBit t' n) := by
  simp only [carrierBit, BitVec.getLsbD_xor]
  split
  · rfl
  · split <;> rfl

theorem packCarrier_xor (t t' : BitVec 196) :
    packCarrier (t ^^^ t') = Vector.zipWith (· ^^^ ·) (packCarrier t) (packCarrier t') := by
  refine Vector.ext fun i hi => BitVec.eq_of_getLsbD_eq fun j hj => ?_
  simp only [packCarrier, Vector.getElem_ofFn, Vector.getElem_zipWith, BitVec.getLsbD_xor, getLsbD_ofBits,
    carrierBit_xor, decide_eq_true hj, Bool.true_and]

theorem bptc_xor (x y : Vector Byte 12) :
    bptc T (Vector.zipWith (· ^^^ ·) x y) = Vector.zipWith (· ^^^ ·) (bptc T x) (bptc T y) := by
  simp only [bptc, bptcMatrix, bptcPlace_xor, encodeRows_xor, encodeCols_xor, interleave_xor, packCarrier_xor]

end

/-- Settles O30: the operand is the sum of the two, and every stage is linear. -/
theorem bptcEncIsLinear : Obligations.BptcEncIsLinear := by
  intro a b c h
  refine ⟨_, _, _, exec_bptcEnc a, exec_bptcEnc b, exec_bptcEnc c, fun i => ?_⟩
  simp only [operandBytes_xor (by decide) h, bptc_xor, resultBytes_toList, Vector.getElem_zipWith]

/-! ### The minimum weight (R124 to R126) -/

/-- No word with one or two bits set satisfies the equations of Hamming(15,11,3): its distance is 3. -/
theorem not_isHamming15_pair : ∀ i j : Fin 15, ¬ IsHamming15 fun c => decide (c = i.val ∨ c = j.val) := by
  unfold IsHamming15
  decide +kernel

/-- No word with one or two bits set satisfies the equations of Hamming(13,9,3): its distance is 3. -/
theorem not_isHamming13_pair : ∀ i j : Fin 13, ¬ IsHamming13 fun r => decide (r = i.val ∨ r = j.val) := by
  unfold IsHamming13
  decide +kernel

/-- The positions below `n` at which a word has its bits set. -/
def support (n : Nat) (h : Nat → Bool) : Finset Nat := (Finset.range n).filter fun i => h i = true

theorem mem_support {n : Nat} {h : Nat → Bool} {i : Nat} : i ∈ support n h ↔ i < n ∧ h i = true := by simp [support]

theorem popcount_eq_card_support {w : Nat} (v : BitVec w) : popcount v = (support w v.getLsbD).card := by
  simp [popcount, support, Finset.card, Finset.range, Multiset.range]

/-- A nonzero word with fewer than three bits set below `n` is one of the words with one or two. -/
theorem exists_pair_of_card_support_lt {n : Nat} {h : Nat → Bool} {k : Nat} (hk : k ∈ support n h)
    (hlt : (support n h).card < 3) : ∃ i j : Fin n, ∀ c < n, h c = decide (c = i.val ∨ c = j.val) := by
  have hpair : ∃ a b, support n h = {a, b} := by
    have hpos : 0 < (support n h).card := Finset.card_pos.2 ⟨k, hk⟩
    have hcard : (support n h).card = 1 ∨ (support n h).card = 2 := by omega
    rcases hcard with h1 | h2
    · obtain ⟨a, ha⟩ := Finset.card_eq_one.1 h1
      exact ⟨a, a, by simp [ha]⟩
    · obtain ⟨a, b, -, hab⟩ := Finset.card_eq_two.1 h2
      exact ⟨a, b, hab⟩
  obtain ⟨a, b, hab⟩ := hpair
  have ha : a ∈ support n h := by simp [hab]
  have hb : b ∈ support n h := by simp [hab]
  refine ⟨⟨a, (mem_support.1 ha).1⟩, ⟨b, (mem_support.1 hb).1⟩, fun c hc => Bool.eq_iff_iff.2 ?_⟩
  calc h c = true
    _ ↔ c ∈ support n h := by rw [mem_support, and_iff_right hc]
    _ ↔ decide (c = a ∨ c = b) = true := by simp [hab]

/-- The code's equations read positions 0 to 14 alone. -/
theorem IsHamming15.congr {f g : Nat → Bool} (h : IsHamming15 f) (hfg : ∀ c < 15, f c = g c) : IsHamming15 g := by
  simp (disch := decide) only [IsHamming15, hfg] at h
  exact h

/-- The code's equations read positions 0 to 12 alone. -/
theorem IsHamming13.congr {f g : Nat → Bool} (h : IsHamming13 f) (hfg : ∀ r < 13, f r = g r) : IsHamming13 g := by
  simp (disch := decide) only [IsHamming13, hfg] at h
  exact h

theorem IsHamming15.three_le_card_support {h : Nat → Bool} (hh : IsHamming15 h) {k : Nat} (hk : k ∈ support 15 h) :
    3 ≤ (support 15 h).card := by
  by_contra hlt
  obtain ⟨i, j, hij⟩ := exists_pair_of_card_support_lt hk (Nat.lt_of_not_le hlt)
  exact not_isHamming15_pair i j (hh.congr hij)

theorem IsHamming13.three_le_card_support {h : Nat → Bool} (hh : IsHamming13 h) {k : Nat} (hk : k ∈ support 13 h) :
    3 ≤ (support 13 h).card := by
  by_contra hlt
  obtain ⟨i, j, hij⟩ := exists_pair_of_card_support_lt hk (Nat.lt_of_not_le hlt)
  exact not_isHamming13_pair i j (hh.congr hij)

/-- A 13 by 15 matrix in positions 1 to 195 with a bit set, whose rows and columns are Hamming codewords, has nine bits set:
three columns of a nonzero row are nonzero, and have three each. -/
theorem nine_le_popcount {m : BitVec 196} (hrow : ∀ r < 13, IsHamming15 fun c => m.getLsbD (1 + 15 * r + c))
    (hcol : ∀ c < 15, IsHamming13 fun r => m.getLsbD (1 + 15 * r + c)) {r c : Nat} (hr : r < 13) (hc : c < 15)
    (hset : m.getLsbD (1 + 15 * r + c) = true) : 9 ≤ popcount m := by
  let cols := support 15 fun c => m.getLsbD (1 + 15 * r + c)
  let rows (c : Nat) := support 13 fun r => m.getLsbD (1 + 15 * r + c)
  have hcols : 3 ≤ cols.card := (hrow r hr).three_le_card_support (mem_support.2 ⟨hc, hset⟩)
  have hrows : ∀ c ∈ cols, 3 ≤ (rows c).card := fun c hc =>
    (hcol c (mem_support.1 hc).1).three_le_card_support (mem_support.2 ⟨hr, (mem_support.1 hc).2⟩)
  have hcells : (cols.sigma rows).card ≤ (support 196 m.getLsbD).card := by
    refine Finset.card_le_card_of_injOn (fun p => 1 + 15 * p.2 + p.1) (fun p hp => ?_) fun p hp q hq hpq => ?_
    · obtain ⟨hp1, hp2⟩ := Finset.mem_sigma.1 hp
      obtain ⟨hlt1, -⟩ := mem_support.1 hp1
      obtain ⟨hlt2, hbit⟩ := mem_support.1 hp2
      have hlt : 1 + 15 * p.2 + p.1 < 196 := by omega
      exact mem_support.2 ⟨hlt, hbit⟩
    · obtain ⟨hp1, hp2⟩ := Finset.mem_sigma.1 hp
      obtain ⟨hq1, hq2⟩ := Finset.mem_sigma.1 hq
      have hpc := (mem_support.1 hp1).1
      have hqc := (mem_support.1 hq1).1
      simp only at hpq
      exact Sigma.ext (by omega) (heq_of_eq (by omega))
  calc 9
    _ ≤ cols.card * 3 := by omega
    _ ≤ (cols.sigma rows).card := by
        rw [Finset.card_sigma, ← smul_eq_mul]
        exact Finset.card_nsmul_le_sum _ _ _ hrows
    _ ≤ popcount m := by rwa [popcount_eq_card_support]

/-- Bit `j` of byte `i` in the stream. -/
theorem msbStream_byte {n : Nat} (b : Vector Byte n) {i j : Nat} (hi : i < n) (hj : j < 8) :
    msbStream b (8 * i + (7 - j)) = b[i].getLsbD j := by
  have hbyte : (8 * i + (7 - j)) / 8 = i := by omega
  have hbit : 7 - (8 * i + (7 - j)) % 8 = j := by omega
  rw [msbStream_eq_getLsbD b (by omega)]
  simp only [hbyte, hbit]

/-- A byte that is not zero has a bit set in the block's stream. -/
theorem exists_msbStream_of_ne_zero {n : Nat} {block : Vector Byte n} {i : Nat} (hi : i < n) (h : block[i] ≠ 0x00) :
    ∃ k < 8 * n, msbStream block k = true := by
  by_contra hall
  simp only [not_exists, not_and, Bool.not_eq_true] at hall
  refine h (BitVec.eq_of_getLsbD_eq fun j hj => ?_)
  have hbit := hall (8 * i + (7 - j)) (by omega)
  rw [msbStream_byte block hi hj] at hbit
  simpa using hbit

/-- Settles O31: a bit of the block is set in its data slot, and the encoded matrix is a product codeword. -/
theorem bptcMinimumWeightNine : Obligations.BptcMinimumWeightNine := by
  rintro block ⟨i, hi⟩
  obtain ⟨k, hk, hbit⟩ := exists_msbStream_of_ne_zero i.isLt hi
  obtain ⟨hpast, hrow, hcol⟩ := slotOf_bounds hk
  have hslot : 1 + 15 * ((slotOf k - 1) / 15) + (slotOf k - 1) % 15 = slotOf k := by omega
  refine nine_le_popcount (fun r hr => isHamming15_bptcMatrix block hr) (fun c hc => isHamming13_bptcMatrix block hc)
    (r := (slotOf k - 1) / 15) (c := (slotOf k - 1) % 15) (by omega) (by omega) ?_
  rw [hslot]
  exact (bptcMatrix_slotOf block ⟨k, hk⟩).trans hbit

/-! ### The header round trip (R160 to R165) -/

theorem eq_of_msbStream_eq {n : Nat} {x y : Vector Byte n} (h : ∀ k < 8 * n, msbStream x k = msbStream y k) : x = y := by
  refine Vector.ext fun i hi => BitVec.eq_of_getLsbD_eq fun j hj => ?_
  have hbit := h (8 * i + (7 - j)) (by omega)
  rwa [msbStream_byte x hi hj, msbStream_byte y hi hj] at hbit

/-- The bits BPTC_ENC writes determine the block: they are the whole interleaved matrix, and it holds the block in its data
slots (41_bptc.md R121, R127, R128). -/
theorem eq_of_bptc_bits_eq {x y : Vector Byte 12}
    (h : ∀ n < 264, n < 98 ∨ 166 ≤ n → msbStream (bptc defaultTables x) n = msbStream (bptc defaultTables y) n) :
    x = y := by
  have harray (a : Nat) (ha : a < 196) :
      (interleave defaultTables (bptcMatrix defaultTables x)).getLsbD a =
        (interleave defaultTables (bptcMatrix defaultTables y)).getLsbD a := by
    by_cases hlow : a < 98
    · have hbit := h a (by omega) (.inl hlow)
      rw [bptc, bptc, msbStream_packCarrier _ _ (by omega), msbStream_packCarrier _ _ (by omega)] at hbit
      simpa [carrierBit, hlow] using hbit
    · have hbit := h (a + 68) (by omega) (.inr (by omega))
      rw [bptc, bptc, msbStream_packCarrier _ _ (by omega), msbStream_packCarrier _ _ (by omega)] at hbit
      simpa [carrierBit, show ¬ a + 68 < 98 by omega, show ¬ a + 68 < 166 by omega] using hbit
  refine eq_of_msbStream_eq fun k hk => ?_
  have hslot : slotOf k < 196 := by
    obtain ⟨-, hrow, hcol⟩ := slotOf_bounds hk
    omega
  have hread (m : BitVec 196) := getLsbD_interleave defaultTables rfl (interleave_nodup rfl (by decide)) m _ hslot
  rw [← bptcMatrix_slotOf x ⟨k, hk⟩, ← bptcMatrix_slotOf y ⟨k, hk⟩, ← hread, ← hread]
  exact harray _ (Nat.mod_lt _ (by decide))

/-- The codeword's high bits are its data byte (40_golay.md R100). -/
theorem eq_of_golayCodeword_high_eq {T : Tables} {d e : Byte}
    (h : ∀ i < 8, (golayCodeword T d).getLsbD (12 + i) = (golayCodeword T e).getLsbD (12 + i)) : d = e := by
  have hhigh (d : Byte) (i : Nat) : (golayCodeword T d).getLsbD (12 + i) = d.getLsbD i := by
    rw [golayCodeword, BitVec.getLsbD_append, if_neg (by omega), Nat.add_sub_cancel_left]
  exact BitVec.eq_of_getLsbD_eq fun i hi => by rw [← hhigh, ← hhigh, h i hi]

/-- With one sync pattern the header carrier determines the link-control block and the slot type (43_header.md R165). -/
theorem headerCarrier_determines {dst src dst' src' : Ident} {st st' : Byte} {sync : Vector Byte 7}
    (h : headerCarrier defaultTables dst src st sync = headerCarrier defaultTables dst' src' st' sync) :
    linkControl defaultTables dst src = linkControl defaultTables dst' src' ∧ st = st' := by
  have hbit (n : Nat) : msbStream (headerCarrier defaultTables dst src st sync) n =
      msbStream (headerCarrier defaultTables dst' src' st' sync) n := by rw [h]
  constructor
  · refine eq_of_bptc_bits_eq fun n hn hbptc => ?_
    have hn' := hbit n
    rw [msbStream_headerCarrier _ _ _ _ _ hn, msbStream_headerCarrier _ _ _ _ _ hn] at hn'
    rcases hbptc with hlow | hhigh
    · simpa only [if_pos hlow] using hn'
    · simpa only [if_neg (show ¬ n < 98 by omega), if_neg (show ¬ n < 108 by omega), if_neg (show ¬ n < 156 by omega),
        if_neg (show ¬ n < 166 by omega)] using hn'
  · refine eq_of_golayCodeword_high_eq (T := defaultTables) fun i hi => ?_
    have hn' := hbit (98 + (7 - i))
    rw [msbStream_headerCarrier _ _ _ _ _ (by omega), msbStream_headerCarrier _ _ _ _ _ (by omega)] at hn'
    simpa only [if_neg (show ¬ 98 + (7 - i) < 98 by omega), if_pos (show 98 + (7 - i) < 108 by omega),
      show 19 - (98 + (7 - i) - 98) = 12 + i by omega] using hn'

/-- Settles O39: the carrier determines the link-control block, which holds the six identifier bytes, and the slot type. -/
theorem hdrBuildIsInjective : Obligations.HdrBuildIsInjective := by
  intro s u t t' hsync hs hu hobuf i
  rw [exec_hdrBuild] at hs hu
  rw [← Host.Outcome.next.inj hs, ← Host.Outcome.next.inj hu] at hobuf
  simp only [resultBytes_toList, ← hsync] at hobuf
  obtain ⟨hlc, hst⟩ := headerCarrier_determines hobuf
  by_cases hi : i.val = 6
  · obtain rfl : i = 6 := Fin.ext hi
    exact hst
  · have hbyte (v : State) : v.ibuf[i.val] = (linkControl defaultTables (operandDst v) (operandSrc v))[3 + i.val] := by
      rw [getElem_linkControl_info _ _ _ (by omega)]
      exact (getElem_lcInfo_operands v ⟨i.val, by omega⟩).symm
    simp only [hbyte, hlc]

end Sys2Proof.Machine
end

section
/-! PROOFS. The default tables (93_implementation_defined.md) and the two deinterleaves (44_deinterleave.md §1 to §3). First
that the defaults are well-formed, condition by condition, and which cells they name. Then what each deinterleave leaves in
every cell, named or not. -/

namespace Sys2Proof.Machine

/-! ### The default tables are well-formed -/

theorem cellsA_nodup_defaultTables : defaultTables.cellsA.Nodup := by decide +kernel

theorem cellsB_nodup_defaultTables : defaultTables.cellsB.Nodup := by decide +kernel

theorem bptcSlots_dataPosition_defaultTables :
    (defaultTables.bptcSlots.toList.all fun a => dataPosition a.val) = true := by decide +kernel

theorem hammingPatterns_defaultTables :
    hammingPatterns defaultTables.hamRow = true ∧ hammingPatterns defaultTables.hamCol = true := by decide +kernel

theorem rsGen_defaultTables : defaultTables.rsGen = rsGenerator defaultTables.gfPrim := by decide +kernel

theorem wf_defaultTables : defaultTables.wf = true := by
  obtain ⟨hrow, hcol⟩ := hammingPatterns_defaultTables
  simp only [Tables.wf, Bool.and_eq_true, decide_eq_true_eq]
  exact ⟨⟨⟨⟨⟨⟨⟨⟨⟨⟨cellsA_nodup_defaultTables, cellsB_nodup_defaultTables⟩, bptcSlots_nodup_defaultTables⟩,
    bptcSlots_dataPosition_defaultTables⟩, hrow⟩, hcol⟩, rfl⟩, by decide⟩, gfPrimitive_0x11D⟩, rsGen_defaultTables⟩,
    golayGenerated_defaultTables⟩

/-- The cells of both families are those of 44_deinterleave.md §1, for each of the 96 cells. -/
theorem mem_cells_defaultTables : ∀ (r : Fin 4) (c : Fin 24),
    ((r, c) ∈ defaultTables.cellsA ↔ c.val < [24, 23, 11, 14].getD r.val 0) ∧
    ((r, c) ∈ defaultTables.cellsB ↔ c.val < [24, 23, 11, 14].getD r.val 0) := by decide +kernel

/-- Settles O43: each condition of well-formedness is one of the facts above, and so are the cells. -/
theorem defaultTablesNameTheSameCells : Obligations.DefaultTablesNameTheSameCells :=
  ⟨wf_defaultTables, mem_cells_defaultTables⟩

/-! ### What the deinterleaves leave in every cell (R181 to R186) -/

/-- The first nine bytes of IBUF are the unit. -/
theorem getD_operandBytes_nine (s : State) {i : Nat} (h : i < 9) :
    (operandBytes s 9 (by decide)).getD i 0 = s.ibuf.getD i 0 := by
  simp [Vector.getD, h, Nat.lt_trans h (by decide : 9 < 33)]

/-- A cell that Family A names for no bit is cleared, with any tables. -/
theorem cell_deinterleaveA_other {T : Tables} (x : Vector Byte 9) {r : Fin 4} {c : Fin 24}
    (h : ∀ k : Fin 72, (T.tabAW[k.val], T.tabAX[k.val]) ≠ (r, c)) : cell (deinterleaveA T x) r c = false := by
  rw [deinterleaveA, cell_scatterCells_other, cell_clearFrame]
  rintro p hp
  obtain ⟨k, -, rfl⟩ := List.mem_map.1 hp
  exact h k

/-- A cell that Family B names for no dibit is cleared, with any tables. -/
theorem cell_deinterleaveB_other {T : Tables} (x : Vector Byte 9) {r : Fin 4} {c : Fin 24}
    (h : ∀ k : Fin 36, (T.tabBW[k.val], T.tabBX[k.val]) ≠ (r, c) ∧ (T.tabBY[k.val], T.tabBZ[k.val]) ≠ (r, c)) :
    cell (deinterleaveB T x) r c = false := by
  rw [deinterleaveB, cell_scatterCells_other, cell_clearFrame]
  rintro p hp
  obtain ⟨k, -, hk⟩ := List.mem_flatMap.1 hp
  obtain ⟨hhigh, hlow⟩ := h k
  rcases List.mem_cons.1 hk with rfl | hk
  · exact hhigh
  · rw [List.mem_singleton.1 hk]
    exact hlow

/-- Settles O40: Family A names no cell twice, so each named cell keeps its bit, and the others stay cleared. -/
theorem deintAResult : Obligations.DeintAResult := by
  intro s
  refine ⟨decode_encode .deintA, _, exec_deintA s, rfl, fun k => ?_, fun r c h => cell_deinterleaveA_other _ h⟩
  rw [cell_deinterleaveA _ cellsA_nodup_defaultTables, lsbStream, getD_operandBytes_nine s (by omega)]

/-- Settles O41: Family B names no cell twice, so each named cell keeps its bit, and the others stay cleared. -/
theorem deintBResult : Obligations.DeintBResult := by
  intro s
  refine ⟨decode_encode .deintB, _, exec_deintB s, rfl, fun k => ?_, fun r c h => cell_deinterleaveB_other _ h⟩
  obtain ⟨hhigh, hlow⟩ := cell_deinterleaveB (operandBytes s 9 (by decide)) cellsB_nodup_defaultTables k
  rw [hhigh, hlow, dibitHigh, dibitLow, getD_operandBytes_nine s (by omega)]
  exact ⟨rfl, rfl⟩

end Sys2Proof.Machine
end
